-- ==== Sys2Proof/Word.lean ====
section
/-! DEFINITION. The widths of the block's values (00_scope.md rules R8 and R10): every one is unsigned, bit 0 is
its least significant bit. -/

namespace Sys2Proof

/-- A byte: accumulator, input byte, checksum, address byte, command code (`CK_WIDTH`, `CMD_WIDTH`, R8). -/
abbrev Byte := BitVec 8

/-- A 7-bit bus address (`ADDR_WIDTH`, R8). -/
abbrev BusAddr := BitVec 7

/-- A 16-bit Register Value (`VALUE_WIDTH`, R8). -/
abbrev RegValue := BitVec 16

/-- A request or response word: an abstract 32-bit value, never laid out in bytes (30_encoding.md R80 and R82,
92_eei_decisions.md D20). -/
abbrev Word := BitVec 32

end Sys2Proof
end

