-- ==== Sys2Proof/Config.lean ====
section
/-! DEFINITION. The block's parameters (00_scope.md rule R8). The constants are definitions; the build parameters
`DEFAULT_ADDR` and `TIMEOUT` and the open parameter `CMD_CODE` are the fields of `Config`, which stands in the
state as plain data, so that a statement about every state is a statement about every choice of them.
Their default values stand beside the encodings, in `Sys2Proof/Decode.lean` (`Config.default`). `TIME_UNIT` (R8, 91_not_in_source.md N3)
has no definition: no rule depends on it, and times are counts of it (DESIGN CHOICE, log entry 9). -/

namespace Sys2Proof

/-- The parameters fixed when the block is built, none of which may change while it runs (R8). -/
structure Config where
  /-- `DEFAULT_ADDR`: the bus address that reset loads. -/
  defaultAddr : BusAddr
  /-- `TIMEOUT`: the one timeout handed to every transport call, in time units. -/
  timeout : Nat
  /-- `CMD_CODE`: the command code of each of the 18 selectors, in selector order (30_encoding.md R100). -/
  cmdCodes : Vector Byte 18
  deriving DecidableEq, Repr

/-- `POLY` (R8). -/
def Config.poly : Byte := 0x07#8

/-- `CK_INIT` (R8). -/
def Config.ckInit : Byte := 0x00#8

/-- `READ_COUNT` (R8): the bytes a framed read asks of the transport. -/
def Config.readCount : Nat := 3

/-- `SETTLE` (R8): the settle delay, in time units. -/
def Config.settle : Nat := 10

/-- `ERASE_VALUE` (R8): the value written to erase a persistent register. -/
def Config.eraseValue : RegValue := 0x0000#16

end Sys2Proof
end

