-- ==== Sys2Proof/Syntax.lean ====
section
/-! DEFINITION. What the block is asked to do: the selectors, the fields of a request word, and `Instr`, one
constructor per row of spec/opcode_table.json (eight `REQ32` requests and eighteen `CMD8` command codes). -/

namespace Sys2Proof

/-- The closed set of 18 selectors, in the order of their numbers 0 to 17 (30_encoding.md R99). -/
inductive Selector where
  | rawir1 | rawir2 | ta | tobj1 | tobj2
  | tomax | tomin | pwmctrl | tarange | emiss | config1 | smbaddr | id1 | id2 | id3 | id4
  | flags
  | sleep
  deriving DecidableEq, Repr

/-- The classes of the device's register space (20_memory.md R58, 30_encoding.md R99). -/
inductive RegClass where
  | volatile | persistent | status | command
  deriving DecidableEq, Repr

/-- The four fields of the one request format `REQ32` (30_encoding.md R80). -/
structure Fields where
  op  : BitVec 4
  mbz : BitVec 7
  sel : BitVec 5
  imm : BitVec 16
  deriving DecidableEq, Repr

/-- What one row of spec/opcode_table.json stands for, with its operands (30_encoding.md R81, R84, R100).
The first eight are the requests. The last eighteen are the rows of the command-code table: the encoder's
look-up of one selector (41_encoder.md R143; log entry 3 says how the model runs one by itself). -/
inductive Instr where
  /-- `CK.CLR` (R122). -/
  | ckClr
  /-- `CK.UPD b` (R123). -/
  | ckUpd (b : Byte)
  /-- `CK.GET` (R124). -/
  | ckGet
  /-- `CFG.ADDR a7` (R146). -/
  | cfgAddr (a7 : BusAddr)
  /-- `RD16 sel` (R160). -/
  | rd16 (sel : Selector)
  /-- `WR16 sel, v` (R163). -/
  | wr16 (sel : Selector) (v : RegValue)
  /-- `WREE sel, v` (R180). -/
  | wree (sel : Selector) (v : RegValue)
  /-- `SLP` (R165). -/
  | slp
  | cmdRawir1 | cmdRawir2 | cmdTa | cmdTobj1 | cmdTobj2
  | cmdTomax | cmdTomin | cmdPwmctrl | cmdTarange | cmdEmiss | cmdConfig1 | cmdSmbaddr
  | cmdId1 | cmdId2 | cmdId3 | cmdId4
  | cmdFlags
  | cmdSleep
  deriving DecidableEq, Repr

/-- A word offered to the block: a 32-bit request on the host channel (R80), or an 8-bit command code, the
`CMD8` form of the opcode table (R100; DESIGN CHOICE, log entry 3). -/
inductive Offer where
  | req32 (w : Word)
  | cmd8 (b : Byte)
  deriving DecidableEq, Repr

/-- The selector whose table row a `CMD8` constructor is (R100); none for a request. -/
def Instr.lookup? : Instr → Option Selector
  | .ckClr | .ckUpd _ | .ckGet | .cfgAddr _ | .rd16 _ | .wr16 _ _ | .wree _ _ | .slp => none
  | .cmdRawir1 => some .rawir1
  | .cmdRawir2 => some .rawir2
  | .cmdTa => some .ta
  | .cmdTobj1 => some .tobj1
  | .cmdTobj2 => some .tobj2
  | .cmdTomax => some .tomax
  | .cmdTomin => some .tomin
  | .cmdPwmctrl => some .pwmctrl
  | .cmdTarange => some .tarange
  | .cmdEmiss => some .emiss
  | .cmdConfig1 => some .config1
  | .cmdSmbaddr => some .smbaddr
  | .cmdId1 => some .id1
  | .cmdId2 => some .id2
  | .cmdId3 => some .id3
  | .cmdId4 => some .id4
  | .cmdFlags => some .flags
  | .cmdSleep => some .sleep

end Sys2Proof
end

