-- ==== Sys2Proof/WellFormed.lean ====
section
/-! DEFINITION. When a request word is malformed (30_encoding.md R85), one named check per clause (a) to (e),
written apart from the decoder so that the two can be compared. Every term of `Instr` is well formed by its types
(a selector is one of 18 names, an address has 7 bits): the checks stand where an ill-formed term can be written,
on the fields of a request word, on the operands an assembler is given (`fits`, R87), and on `CMD_CODE`
(`Config.wellFormed`, in Decode.lean because it needs the selectors' numbers). -/

namespace Sys2Proof

/-- Why an offered word is no instruction. The first five are the clauses of R85; the block answers all five alike,
with `InvalidRequest` (60_exceptions.md R213). -/
inductive Malformed where
  /-- R85 (a). -/
  | reservedOpcode
  /-- R85 (b). -/
  | mbzNotZero
  /-- R85 (c). -/
  | selNotZero
  /-- R85 (d). -/
  | reservedSelector
  /-- R85 (e). -/
  | immNotZero
  /-- An offered byte that is the command code of no selector (R100). -/
  | noCommandCode
  deriving DecidableEq, Repr

/-- R85 (a): the opcodes that stand for no operation. -/
def Fields.opReserved (f : Fields) : Bool :=
  [0x0, 0x5, 0x6, 0x7, 0xC, 0xD, 0xE, 0xF].contains f.op.toNat

/-- R85 (b). -/
def Fields.mbzSet (f : Fields) : Bool :=
  f.mbz != 0

/-- R85 (c): a selector where the request takes none. -/
def Fields.selUnused (f : Fields) : Bool :=
  [0x1, 0x2, 0x3, 0x4, 0xB].contains f.op.toNat && f.sel != 0

/-- R85 (d): a reserved selector where the request takes one. -/
def Fields.selReserved (f : Fields) : Bool :=
  [0x8, 0x9, 0xA].contains f.op.toNat && decide (18 ≤ f.sel.toNat)

/-- R85 (e): a bit of the immediate that R81 says is zero. -/
def Fields.immUnused (f : Fields) : Bool :=
  ([0x1, 0x3, 0x8, 0xB].contains f.op.toNat && f.imm != 0)
    || (f.op.toNat == 0x2 && decide (2 ^ 8 ≤ f.imm.toNat))
    || (f.op.toNat == 0x4 && decide (2 ^ 7 ≤ f.imm.toNat))

/-- R85: the request is malformed. -/
def Fields.malformed (f : Fields) : Bool :=
  f.opReserved || f.mbzSet || f.selUnused || f.selReserved || f.immUnused

/-- R87: an immediate fits its field, or the assembler must reject it. -/
def fits (width n : Nat) : Bool :=
  decide (n < 2 ^ width)

end Sys2Proof
end

