-- ==== Sys2Proof/Decode.lean ====
section
/-! DEFINITION. Selector numbers, the default parameters, the decoder and the encoder (30_encoding.md R80 to R86,
R99, R100). Decoding is total: an offered word is an instruction or is rejected by a named `Malformed`. -/

namespace Sys2Proof

/-- The 5-bit number of a selector (R99). -/
def Selector.number : Selector → BitVec 5
  | .rawir1 => 0 | .rawir2 => 1 | .ta => 2 | .tobj1 => 3 | .tobj2 => 4
  | .tomax => 5 | .tomin => 6 | .pwmctrl => 7 | .tarange => 8 | .emiss => 9
  | .config1 => 10 | .smbaddr => 11 | .id1 => 12 | .id2 => 13 | .id3 => 14 | .id4 => 15
  | .flags => 16 | .sleep => 17

/-- The selectors in the order of their numbers (R99). -/
def Selector.all : List Selector :=
  [.rawir1, .rawir2, .ta, .tobj1, .tobj2, .tomax, .tomin, .pwmctrl, .tarange, .emiss, .config1, .smbaddr,
   .id1, .id2, .id3, .id4, .flags, .sleep]

/-- The selector of a 5-bit number; the numbers 18 to 31 are reserved (R99). -/
def Selector.ofNumber (n : BitVec 5) : Option Selector :=
  Selector.all[n.toNat]?

/-- The number of a selector, as a position in the command-code table. -/
def Selector.index (sel : Selector) : Fin 18 :=
  ⟨sel.number.toNat, by cases sel <;> decide⟩

/-- `CMD_CODE(sel)`: the encoder's table look-up (41_encoder.md R143). -/
def Config.code (cfg : Config) (sel : Selector) : Byte :=
  cfg.cmdCodes.get sel.index

/-- The default command codes (R100). PRESUMED: the spec itself takes every number from general knowledge (93_implementation_defined.md
G1); log entry 8. -/
def defaultCmdCodes : Vector Byte 18 :=
  #v[0x04, 0x05, 0x06, 0x07, 0x08,
     0x20, 0x21, 0x22, 0x23, 0x24, 0x25, 0x2E, 0x3C, 0x3D, 0x3E, 0x3F,
     0xF0, 0xFF]

/-- The documented defaults of the parameters (00_scope.md R8). -/
def Config.default : Config where
  defaultAddr := 0x5A#7
  timeout := 100
  cmdCodes := defaultCmdCodes

/-- The one constraint on `CMD_CODE`: it is an enumeration, hence injective (R100). -/
def Config.wellFormed (cfg : Config) : Bool :=
  Selector.all.all fun a => Selector.all.all fun b => a == b || cfg.code a != cfg.code b

/-- The fields of a request word (R80). -/
def Fields.ofWord (w : Word) : Fields where
  op  := w.extractLsb' 28 4
  mbz := w.extractLsb' 21 7
  sel := w.extractLsb' 16 5
  imm := w.extractLsb' 0 16

/-- The request word of four fields (R80). -/
def Fields.toWord (f : Fields) : Word :=
  f.op ++ f.mbz ++ f.sel ++ f.imm

/-- Decoding a request that takes neither selector nor immediate (R81). -/
def Fields.decodeBare (f : Fields) (i : Instr) : Except Malformed Instr :=
  if f.sel ≠ 0 then .error .selNotZero
  else if f.imm ≠ 0 then .error .immNotZero
  else .ok i

/-- Decoding a request whose selector field must name one of the 18 selectors (R81, R85 (d)). -/
def Fields.decodeSelector (f : Fields) (k : Selector → Except Malformed Instr) : Except Malformed Instr :=
  match Selector.ofNumber f.sel with
  | none => .error .reservedSelector
  | some sel => k sel

/-- The opcode map (R84) with the use of the fields by each operation (R81). -/
def Fields.decode (f : Fields) : Except Malformed Instr :=
  if f.mbz ≠ 0 then .error .mbzNotZero
  else match f.op.toNat with
  | 0x1 => f.decodeBare .ckClr
  | 0x2 =>
    if f.sel ≠ 0 then .error .selNotZero
    else if f.imm.extractLsb' 8 8 ≠ 0 then .error .immNotZero
    else .ok (.ckUpd (f.imm.extractLsb' 0 8))
  | 0x3 => f.decodeBare .ckGet
  | 0x4 =>
    if f.sel ≠ 0 then .error .selNotZero
    else if f.imm.extractLsb' 7 9 ≠ 0 then .error .immNotZero
    else .ok (.cfgAddr (f.imm.extractLsb' 0 7))
  | 0x8 => f.decodeSelector fun sel => if f.imm ≠ 0 then .error .immNotZero else .ok (.rd16 sel)
  | 0x9 => f.decodeSelector fun sel => .ok (.wr16 sel f.imm)
  | 0xA => f.decodeSelector fun sel => .ok (.wree sel f.imm)
  | 0xB => f.decodeBare .slp
  | _ => .error .reservedOpcode

/-- The request decoder, for any 32-bit word (R84, R85). -/
def decodeRequest (w : Word) : Except Malformed Instr :=
  (Fields.ofWord w).decode

/-- The `CMD8` row of a selector (R100). -/
def Selector.row : Selector → Instr
  | .rawir1 => .cmdRawir1 | .rawir2 => .cmdRawir2 | .ta => .cmdTa | .tobj1 => .cmdTobj1 | .tobj2 => .cmdTobj2
  | .tomax => .cmdTomax | .tomin => .cmdTomin | .pwmctrl => .cmdPwmctrl | .tarange => .cmdTarange
  | .emiss => .cmdEmiss | .config1 => .cmdConfig1 | .smbaddr => .cmdSmbaddr
  | .id1 => .cmdId1 | .id2 => .cmdId2 | .id3 => .cmdId3 | .id4 => .cmdId4
  | .flags => .cmdFlags | .sleep => .cmdSleep

/-- The row of the command-code table that a byte spells under the parameter `CMD_CODE` (R100). -/
def decodeCommand (cfg : Config) (b : Byte) : Except Malformed Instr :=
  match Selector.all.find? (fun sel => cfg.code sel == b) with
  | none => .error .noCommandCode
  | some sel => .ok sel.row

/-- The decoder, total on whatever is offered. -/
def decode (cfg : Config) : Offer → Except Malformed Instr
  | .req32 w => decodeRequest w
  | .cmd8 b => decodeCommand cfg b

/-- The word an instruction of the table is written as: the fields of R81 under the opcode of R84, or the code of
R100. -/
def encode (cfg : Config) : Instr → Offer
  | .ckClr => .req32 (Fields.toWord ⟨0x1, 0, 0, 0⟩)
  | .ckUpd b => .req32 (Fields.toWord ⟨0x2, 0, 0, b.zeroExtend 16⟩)
  | .ckGet => .req32 (Fields.toWord ⟨0x3, 0, 0, 0⟩)
  | .cfgAddr a7 => .req32 (Fields.toWord ⟨0x4, 0, 0, a7.zeroExtend 16⟩)
  | .rd16 sel => .req32 (Fields.toWord ⟨0x8, 0, sel.number, 0⟩)
  | .wr16 sel v => .req32 (Fields.toWord ⟨0x9, 0, sel.number, v⟩)
  | .wree sel v => .req32 (Fields.toWord ⟨0xA, 0, sel.number, v⟩)
  | .slp => .req32 (Fields.toWord ⟨0xB, 0, 0, 0⟩)
  | .cmdRawir1 => .cmd8 (cfg.code .rawir1)
  | .cmdRawir2 => .cmd8 (cfg.code .rawir2)
  | .cmdTa => .cmd8 (cfg.code .ta)
  | .cmdTobj1 => .cmd8 (cfg.code .tobj1)
  | .cmdTobj2 => .cmd8 (cfg.code .tobj2)
  | .cmdTomax => .cmd8 (cfg.code .tomax)
  | .cmdTomin => .cmd8 (cfg.code .tomin)
  | .cmdPwmctrl => .cmd8 (cfg.code .pwmctrl)
  | .cmdTarange => .cmd8 (cfg.code .tarange)
  | .cmdEmiss => .cmd8 (cfg.code .emiss)
  | .cmdConfig1 => .cmd8 (cfg.code .config1)
  | .cmdSmbaddr => .cmd8 (cfg.code .smbaddr)
  | .cmdId1 => .cmd8 (cfg.code .id1)
  | .cmdId2 => .cmd8 (cfg.code .id2)
  | .cmdId3 => .cmd8 (cfg.code .id3)
  | .cmdId4 => .cmd8 (cfg.code .id4)
  | .cmdFlags => .cmd8 (cfg.code .flags)
  | .cmdSleep => .cmd8 (cfg.code .sleep)

/-- The match and mask of a row of the opcode table, as its format numbers the bits: R84 for a request; for a
command code the whole byte. -/
def Instr.tableRow (cfg : Config) : Instr → Nat × Nat
  | .ckClr => (0x10000000, 0xFFFFFFFF)
  | .ckUpd _ => (0x20000000, 0xFFFFFF00)
  | .ckGet => (0x30000000, 0xFFFFFFFF)
  | .cfgAddr _ => (0x40000000, 0xFFFFFF80)
  | .rd16 _ => (0x80000000, 0xFFE0FFFF)
  | .wr16 _ _ => (0x90000000, 0xFFE00000)
  | .wree _ _ => (0xA0000000, 0xFFE00000)
  | .slp => (0xB0000000, 0xFFFFFFFF)
  | .cmdRawir1 => ((cfg.code .rawir1).toNat, 0xFF)
  | .cmdRawir2 => ((cfg.code .rawir2).toNat, 0xFF)
  | .cmdTa => ((cfg.code .ta).toNat, 0xFF)
  | .cmdTobj1 => ((cfg.code .tobj1).toNat, 0xFF)
  | .cmdTobj2 => ((cfg.code .tobj2).toNat, 0xFF)
  | .cmdTomax => ((cfg.code .tomax).toNat, 0xFF)
  | .cmdTomin => ((cfg.code .tomin).toNat, 0xFF)
  | .cmdPwmctrl => ((cfg.code .pwmctrl).toNat, 0xFF)
  | .cmdTarange => ((cfg.code .tarange).toNat, 0xFF)
  | .cmdEmiss => ((cfg.code .emiss).toNat, 0xFF)
  | .cmdConfig1 => ((cfg.code .config1).toNat, 0xFF)
  | .cmdSmbaddr => ((cfg.code .smbaddr).toNat, 0xFF)
  | .cmdId1 => ((cfg.code .id1).toNat, 0xFF)
  | .cmdId2 => ((cfg.code .id2).toNat, 0xFF)
  | .cmdId3 => ((cfg.code .id3).toNat, 0xFF)
  | .cmdId4 => ((cfg.code .id4).toNat, 0xFF)
  | .cmdFlags => ((cfg.code .flags).toNat, 0xFF)
  | .cmdSleep => ((cfg.code .sleep).toNat, 0xFF)

/-- An instruction of the opcode table with its bits numbered as the table numbers them: a word of 8 bits is a
command code, any other a request word. -/
def offerOf (nbits w : Nat) : Offer :=
  if nbits = 8 then .cmd8 (BitVec.ofNat 8 w) else .req32 (BitVec.ofNat 32 w)

/-- What the decoder reads from the bits `w` of a row of spec/opcode_table.json, under the default parameters. -/
def decodeTableWord (nbits w : Nat) : Option Instr :=
  (decode Config.default (offerOf nbits w)).toOption

end Sys2Proof
end

