-- ==== Sys2Proof/Machine/State.lean ====
section
/-! DEFINITION. The block's state: every register and latch of 10_state.md, the response it has put out, its
parameters, what the environment beyond the host channel and the ports has to give (inputs), and what has been seen
at the ports (observation). All of it is plain data. The block has no memory of its own (R31); the device's
register space lies beyond the transport port (R50) and is no state of the block (DEDUCED, log entry 4). -/

namespace Sys2Proof.Machine

/-- The sequencer phase `PHASE`: the external call the block is waiting on (10_state.md R24). -/
inductive Phase where
  | idle | rdXfer | wrXfer | slpXfer | eeRead | eeErase | eeWait1 | eeProg | eeWait2
  deriving DecidableEq, Repr

/-- The answer of one `TransportRead` (20_memory.md R52): the bytes in the order the device sent them, or `Err`. -/
inductive ReadAnswer where
  | ok (bytes : List Byte)
  | err
  deriving DecidableEq, Repr

/-- The answer of one `TransportWrite` (20_memory.md R53). -/
inductive WriteAnswer where
  | ok
  | err
  deriving DecidableEq, Repr

/-- What is seen of the block from outside: the calls at the transport and delay ports, each with all its operands,
and the responses (42_transactions.md R167). -/
inductive Event where
  /-- `TransportRead(a, r, n, t)` (R52). -/
  | transportRead (a r : Byte) (n t : Nat)
  /-- `TransportWrite(a, r, s, t)` (R53). -/
  | transportWrite (a r : Byte) (s : List Byte) (t : Nat)
  /-- `Delay(n)` (R54). -/
  | delay (n : Nat)
  /-- A response word (30_encoding.md R82). -/
  | response (rsp : Word)
  deriving DecidableEq, Repr

/-- The transient latches of 10_state.md R26, by name. -/
inductive LatchName where
  | sel | cmd | val | lo | hi | pec | cur | tacc
  deriving DecidableEq, Repr

/-- The block and its surroundings. -/
structure State where
  /-- The parameters, fixed while the block runs (00_scope.md R8). -/
  cfg : Config
  /-- `ADDR` (R21). -/
  addr : BusAddr
  /-- `ACC` (R22). -/
  acc : Byte
  /-- `PHASE` (R24). -/
  phase : Phase
  /-- `SEL` (R26). As every latch of R26 it may hold no value, which is the spec's own state of it. -/
  sel : Option (BitVec 5)
  /-- `CMD` (R26). -/
  cmd : Option Byte
  /-- `VAL` (R26). -/
  val : Option RegValue
  /-- `LO` (R26). -/
  lo : Option Byte
  /-- `HI` (R26). -/
  hi : Option Byte
  /-- `PEC` (R26). -/
  pec : Option Byte
  /-- `CUR` (R26). -/
  cur : Option RegValue
  /-- `TACC` (R26). -/
  tacc : Option Byte
  /-- The response the block has put out for the host (R33, 30_encoding.md R82). -/
  pending : Option Word
  /-- Input: the block's reset input is asserted (70_reset_and_hazards.md R240). -/
  resetLine : Bool
  /-- Input: the words the host has yet to have accepted, in order of arrival (R25); no queue of the block's. -/
  inbox : List Offer
  /-- Input: the transport's answers to the next `TransportRead` calls (R50, R52). -/
  reads : List ReadAnswer
  /-- Input: the transport's answers to the next `TransportWrite` calls (R50, R53). -/
  writes : List WriteAnswer
  /-- Input: how many of the next `Delay` calls have returned (R54). -/
  delays : Nat
  /-- Observation: everything seen at the ports and the response channel, oldest first (R167). -/
  trace : List Event
  /-- Observation: what the command encoder has put out, oldest first (41_encoder.md R143; DESIGN CHOICE, log entry 3). -/
  codes : List Byte
  deriving DecidableEq, Repr

/-- Why the block is stuck. -/
inductive Fault where
  /-- The sequencer reads a latch that holds no value (10_state.md R26, 93_implementation_defined.md U18).
  Raised by `State.resume` alone. Safe: the spec gives such a read no value. No state that
  `State.Sound` admits raises it. -/
  | emptyLatch (latch : LatchName)
  deriving DecidableEq, Repr

/-- Why the model gives no meaning. -/
inductive Refusal where
  /-- An instruction without a meaning; raised by an arm of `exec` alone, and by none at present. Safe. -/
  | notModelled (mnemonic : String)
  /-- Reset while a request is in progress, to which a model is to give no meaning (70_reset_and_hazards.md
  R241, 93_implementation_defined.md U14: refuse). Raised by `step` alone. Safe. -/
  | resetInProgress
  /-- An offered byte that is no selector's command code: no row of the table (30_encoding.md R100; DESIGN CHOICE, log entry 3).
  Raised by `State.refuseOffer` alone. Safe. -/
  | noCommandCode
  deriving DecidableEq, Repr

/-- The outcome of a step of this machine. -/
abbrev Result := Host.Outcome State Fault Refusal

/-- The block right after reset with given parameters (10_state.md R33, 70_reset_and_hazards.md R240): `ADDR` at
`DEFAULT_ADDR`, `ACC` at `CK_INIT`, `PHASE` at `IDLE`, no latch holding a value, no response pending; and an
environment that has offered and answered nothing yet. -/
def State.resetWith (cfg : Config) : State where
  cfg := cfg
  addr := cfg.defaultAddr
  acc := Config.ckInit
  phase := .idle
  sel := none
  cmd := none
  val := none
  lo := none
  hi := none
  pec := none
  cur := none
  tacc := none
  pending := none
  resetLine := false
  inbox := []
  reads := []
  writes := []
  delays := 0
  trace := []
  codes := []

/-- The machine right after reset, its parameters at their documented defaults. -/
def State.reset : State :=
  State.resetWith Config.default

end Sys2Proof.Machine
end

