-- ==== Sys2Proof/Machine/Operands.lean ====
section
/-! DEFINITION. The operands the block assembles (30_encoding.md R95): values from bytes and bytes from values, the
address bytes (41_encoder.md R140, R141), the frames that are checksummed and the payloads that are sent
(30_encoding.md R90 to R93), and the class of a selector (41_encoder.md R144). -/

namespace Sys2Proof.Machine

/-- `zext_16(LO) OR (zext_16(HI) << 8)_16` (20_memory.md R56, R95 item 1). -/
def valueOfBytes (lo hi : Byte) : RegValue :=
  lo.zeroExtend 16 ||| (hi.zeroExtend 16 <<< 8)

/-- `VAL[7:0]`, the byte sent first (R56, R95 item 2). -/
def lowByte (v : RegValue) : Byte :=
  v.extractLsb' 0 8

/-- `VAL[15:8]`, the byte sent second (R56, R95 item 2). -/
def highByte (v : RegValue) : Byte :=
  v.extractLsb' 8 8

/-- `SAW`, the write-address byte (R140). -/
def saw (addr : BusAddr) : Byte :=
  addr.zeroExtend 8 <<< 1

/-- `SAR`, the read-address byte (R141). -/
def sar (addr : BusAddr) : Byte :=
  saw addr ||| 0x01#8

/-- The read frame (R90). -/
def readFrame (addr : BusAddr) (cmd lo hi : Byte) : List Byte :=
  [saw addr, cmd, sar addr, lo, hi]

/-- The write frame (R91). -/
def writeFrame (addr : BusAddr) (cmd : Byte) (v : RegValue) : List Byte :=
  [saw addr, cmd, lowByte v, highByte v]

/-- The sleep frame (R92). -/
def sleepFrame (addr : BusAddr) (cmd : Byte) : List Byte :=
  [saw addr, cmd]

/-- The class of a selector (R144). The block never evaluates it (42_transactions.md R166). -/
def regClass : Selector → RegClass
  | .rawir1 | .rawir2 | .ta | .tobj1 | .tobj2 => .volatile
  | .tomax | .tomin | .pwmctrl | .tarange | .emiss | .config1 | .smbaddr | .id1 | .id2 | .id3 | .id4 => .persistent
  | .flags => .status
  | .sleep => .command

end Sys2Proof.Machine
end

