-- ==== Sys2Proof/Machine/Flags.lean ====
section
/-! DEFINITION. The block has no flags and no condition codes (10_state.md R28). What stands in their place: the
status that a response carries (30_encoding.md R82, R83), and the two comparisons whose outcome is used at once. -/

namespace Sys2Proof.Machine

/-- How a request ends (60_exceptions.md R210). -/
inductive Status where
  | ok | transportError | checksumError | invalidRequest
  deriving DecidableEq, Repr

/-- The status codes (30_encoding.md R83). -/
def Status.code : Status → BitVec 2
  | .ok => 0 | .transportError => 1 | .checksumError => 2 | .invalidRequest => 3

/-- The status of a code: all four codes are in use. -/
def Status.ofCode (c : BitVec 2) : Status :=
  if c = 0 then .ok else if c = 1 then .transportError else if c = 2 then .checksumError else .invalidRequest

/-- The response word `RSP32` (30_encoding.md R82). -/
def responseWord (st : Status) (value : RegValue) : Word :=
  (0#14 : BitVec 14) ++ st.code ++ value

/-- The status field of a response word (R82). -/
def responseStatus (rsp : Word) : Status :=
  Status.ofCode (rsp.extractLsb' 16 2)

/-- The value field of a response word (R82). -/
def responseValue (rsp : Word) : RegValue :=
  rsp.extractLsb' 0 16

/-- The read check `compute(frame) == PEC` (42_transactions.md R161). -/
def checksumMatches (frame : List Byte) (pec : Byte) : Bool :=
  compute frame == pec

/-- The comparison of step 2 of `WREE`, on all 16 bits (43_persistent_writer.md R181). -/
def alreadyHolds (cur val : RegValue) : Bool :=
  cur == val

end Sys2Proof.Machine
end

