-- ==== Sys2Proof/Machine/Ops.lean ====
section
/-! DEFINITION. The operations the meanings share: taking up a request, making a call at a port, ending a request by a
response, the block's one exception (`raise`), and reset. A call is recorded in the trace when it is made; its
answer is awaited in the phase that the call enters (10_state.md R24). -/

namespace Sys2Proof.Machine

/-- Every latch of 10_state.md R26 loses its value. -/
def State.clearLatches (s : State) : State :=
  { s with sel := none, cmd := none, val := none, lo := none, hi := none, pec := none, cur := none, tacc := none }

/-- The end of a request (42_transactions.md R167, 10_state.md R24, R26): one response is emitted, `PHASE` returns to
`IDLE`, and no latch keeps a value. -/
def State.finish (st : Status) (value : RegValue) (s : State) : State :=
  { s.clearLatches with
    phase := .idle
    pending := some (responseWord st value)
    trace := s.trace ++ [.response (responseWord st value)] }

/-- `respond(OK, v)` (00_scope.md R11). -/
def State.respond (value : RegValue) (s : State) : State :=
  s.finish .ok value

/-- `raise <Kind>`, the block's one way of taking an exception (60_exceptions.md R214): the response carries the
kind's code and the value 0x0000, and the block is ready for the next request. Nothing is saved and control goes
nowhere, so there is no return from it either (R219). -/
def State.raise (kind : Status) (s : State) : State :=
  s.finish kind 0x0000#16

/-- The command encoder evaluated for one selector (41_encoder.md R143, R145): it puts out the selector's code and
holds no state. -/
def State.lookUp (sel : Selector) (s : State) : State :=
  { s with codes := s.codes ++ [s.cfg.code sel] }

/-- A request is accepted: `SEL`, `CMD` and, where the request has a value, `VAL` are written (10_state.md R26); no
other latch holds a value yet, and no response is pending (30_encoding.md R82). -/
def State.accept (sel : Selector) (value : Option RegValue) (s : State) : State :=
  { (s.lookUp sel).clearLatches with
    sel := some sel.number, cmd := some (s.cfg.code sel), val := value, pending := none }

/-- `PHASE <- p` and `TransportRead(SAW, cmd, READ_COUNT, TIMEOUT)` (20_memory.md R52). -/
def State.callRead (p : Phase) (cmd : Byte) (s : State) : State :=
  { s with
    phase := p
    trace := s.trace ++ [.transportRead (saw s.addr) cmd Config.readCount s.cfg.timeout] }

/-- `PHASE <- p` and `TransportWrite(SAW, cmd, payload, TIMEOUT)` (20_memory.md R53). -/
def State.callWrite (p : Phase) (cmd : Byte) (payload : List Byte) (s : State) : State :=
  { s with
    phase := p
    trace := s.trace ++ [.transportWrite (saw s.addr) cmd payload s.cfg.timeout] }

/-- `PHASE <- p` and `Delay(SETTLE)` (20_memory.md R54). -/
def State.callDelay (p : Phase) (s : State) : State :=
  { s with phase := p, trace := s.trace ++ [.delay Config.settle] }

/-- `write(cmd, v)` up to its call (42_transactions.md R163): the bytes of `v`, the checksum of the write frame in
the transactor's own accumulator (40_checksum_engine.md R126), and the call with the payload `{LO, HI, PEC}`. -/
def State.sendWord (p : Phase) (cmd : Byte) (v : RegValue) (s : State) : State :=
  let pec := compute (writeFrame s.addr cmd v)
  { s with lo := some (lowByte v), hi := some (highByte v), pec := some pec, tacc := some pec }.callWrite p cmd
    [lowByte v, highByte v, pec]

/-- The body of `SLP` up to its call (42_transactions.md R165): the payload is the checksum of the sleep frame. -/
def State.sendSleep (p : Phase) (cmd : Byte) (s : State) : State :=
  let pec := compute (sleepFrame s.addr cmd)
  { s with pec := some pec, tacc := some pec }.callWrite p cmd [pec]

/-- `read(cmd)` from the answer on (42_transactions.md R160): `Err`, or `Ok` with other than three bytes
(20_memory.md R52), raises `TransportError`; a failed check raises `ChecksumError` and drops the data (R161);
otherwise the request goes on with the value read. -/
def State.receive (answer : ReadAnswer) (cmd : Byte) (goOn : RegValue → State → State) (s : State) : State :=
  match answer with
  | .ok [lo, hi, pec] =>
    let frame := readFrame s.addr cmd lo hi
    let value := valueOfBytes lo hi
    let s' := { s with lo := some lo, hi := some hi, pec := some pec, cur := some value, tacc := some (compute frame) }
    if checksumMatches frame pec then goOn value s' else s'.raise .checksumError
  | .ok _ => s.raise .transportError
  | .err => s.raise .transportError

/-- A write call from its answer on: `Err` raises `TransportError` (R163, 60_exceptions.md R211). -/
def State.acknowledge (answer : WriteAnswer) (goOn : State → State) (s : State) : State :=
  match answer with
  | .ok => goOn s
  | .err => s.raise .transportError

/-- An offered word that is no instruction: a malformed request is answered with `InvalidRequest` and has no other
effect (30_encoding.md R85, 60_exceptions.md R213); a byte that is no command code has no meaning. -/
def State.refuseOffer (m : Malformed) (s : State) : Result :=
  match m with
  | .reservedOpcode | .mbzNotZero | .selNotZero | .reservedSelector | .immNotZero =>
    .next (s.raise .invalidRequest)
  | .noCommandCode => .refused .noCommandCode

/-- The request in progress is given up: `PHASE` is `IDLE` and no latch holds a value. -/
def State.abandon (s : State) : State :=
  { s.clearLatches with phase := .idle }

/-- Reset (70_reset_and_hazards.md R240, R242) takes the block to its reset values and leaves everything beyond the
block alone; while a request is in progress it has no meaning (R241). -/
def State.takeReset (s : State) : Result :=
  if s.phase = .idle then
    .next { s.abandon with addr := s.cfg.defaultAddr, acc := Config.ckInit, pending := none, resetLine := false }
  else .refused .resetInProgress

end Sys2Proof.Machine
end

