-- ==== Sys2Proof/Machine/ChecksumEngine.lean ====
section
/-! DEFINITION. The streaming Checksum-8 generator: `CK.CLR`, `CK.UPD`, `CK.GET` (40_checksum_engine.md). Each is
accepted and answered in one step and makes no call (10_state.md R24). -/

namespace Sys2Proof.Machine

/-- `CK.CLR` (R122). -/
def execCkClr (s : State) : Result :=
  .next ({ s with acc := Config.ckInit }.respond (Config.ckInit.zeroExtend 16))

/-- `CK.UPD b` (R123). -/
def execCkUpd (b : Byte) (s : State) : Result :=
  .next ({ s with acc := ck8Step s.acc b }.respond ((ck8Step s.acc b).zeroExtend 16))

/-- `CK.GET` (R124). -/
def execCkGet (s : State) : Result :=
  .next (s.respond (s.acc.zeroExtend 16))

end Sys2Proof.Machine
end

