-- ==== Sys2Proof/Machine/Encoder.lean ====
section
/-! DEFINITION. The register address/command encoder (41_encoder.md): `CFG.ADDR`, and the eighteen rows of the
command-code table (30_encoding.md R100). A row run by itself is the encoder evaluated for that row's selector
(R143): it puts the code out and changes no register, since the encoder holds no state (R145); it is no request and
has no response (DESIGN CHOICE, log entry 3). -/

namespace Sys2Proof.Machine

/-- `CFG.ADDR a7` (R146). -/
def execCfgAddr (a7 : BusAddr) (s : State) : Result :=
  .next ({ s with addr := a7 }.respond (a7.zeroExtend 16))

/-- `CMD.RAWIR1` (R100, R143). -/
def execCmdRawir1 (s : State) : Result :=
  .next (s.lookUp .rawir1)

/-- `CMD.RAWIR2` (R100, R143). -/
def execCmdRawir2 (s : State) : Result :=
  .next (s.lookUp .rawir2)

/-- `CMD.TA` (R100, R143). -/
def execCmdTa (s : State) : Result :=
  .next (s.lookUp .ta)

/-- `CMD.TOBJ1` (R100, R143). -/
def execCmdTobj1 (s : State) : Result :=
  .next (s.lookUp .tobj1)

/-- `CMD.TOBJ2` (R100, R143). -/
def execCmdTobj2 (s : State) : Result :=
  .next (s.lookUp .tobj2)

/-- `CMD.TOMAX` (R100, R143). -/
def execCmdTomax (s : State) : Result :=
  .next (s.lookUp .tomax)

/-- `CMD.TOMIN` (R100, R143). -/
def execCmdTomin (s : State) : Result :=
  .next (s.lookUp .tomin)

/-- `CMD.PWMCTRL` (R100, R143). -/
def execCmdPwmctrl (s : State) : Result :=
  .next (s.lookUp .pwmctrl)

/-- `CMD.TARANGE` (R100, R143). -/
def execCmdTarange (s : State) : Result :=
  .next (s.lookUp .tarange)

/-- `CMD.EMISS` (R100, R143). -/
def execCmdEmiss (s : State) : Result :=
  .next (s.lookUp .emiss)

/-- `CMD.CONFIG1` (R100, R143). -/
def execCmdConfig1 (s : State) : Result :=
  .next (s.lookUp .config1)

/-- `CMD.SMBADDR` (R100, R143). -/
def execCmdSmbaddr (s : State) : Result :=
  .next (s.lookUp .smbaddr)

/-- `CMD.ID1` (R100, R143). -/
def execCmdId1 (s : State) : Result :=
  .next (s.lookUp .id1)

/-- `CMD.ID2` (R100, R143). -/
def execCmdId2 (s : State) : Result :=
  .next (s.lookUp .id2)

/-- `CMD.ID3` (R100, R143). -/
def execCmdId3 (s : State) : Result :=
  .next (s.lookUp .id3)

/-- `CMD.ID4` (R100, R143). -/
def execCmdId4 (s : State) : Result :=
  .next (s.lookUp .id4)

/-- `CMD.FLAGS` (R100, R143). -/
def execCmdFlags (s : State) : Result :=
  .next (s.lookUp .flags)

/-- `CMD.SLEEP` (R100, R143). -/
def execCmdSleep (s : State) : Result :=
  .next (s.lookUp .sleep)

end Sys2Proof.Machine
end

