-- ==== Sys2Proof/Machine/Sequencer.lean ====
section
/-! DEFINITION. The sequencer: what the block does when the call it waits on is answered (10_state.md R24,
00_scope.md R12). Where the environment has not answered yet, the block goes on waiting. -/

namespace Sys2Proof.Machine

/-- Reading a latch; one that holds no value has none to give (10_state.md R26). -/
def withLatch {α : Type} (name : LatchName) (latch : Option α) (k : α → Result) : Result :=
  match latch with
  | some v => k v
  | none => .fault (.emptyLatch name)

/-- The block receives the answer of the read call it waits on, if there is one. -/
def State.onRead (s : State) (k : ReadAnswer → State → Result) : Result :=
  match s.reads with
  | [] => .next s
  | answer :: rest => k answer { s with reads := rest }

/-- The block receives the answer of the write call it waits on, if there is one. -/
def State.onWrite (s : State) (k : WriteAnswer → State → Result) : Result :=
  match s.writes with
  | [] => .next s
  | answer :: rest => k answer { s with writes := rest }

/-- The delay the block waits on has returned, if it has. -/
def State.onDelay (s : State) (k : State → Result) : Result :=
  match s.delays with
  | 0 => .next s
  | n + 1 => k { s with delays := n }

/-- One step of the sequencer (R12): the answer of one call, and everything up to the next call or the response. The
phases are those of R24; the pseudocode is that of 42_transactions.md R160, R163, R165 and
43_persistent_writer.md R180. -/
def State.resume (s : State) : Result :=
  match s.phase with
  | .idle => .next s
  | .rdXfer =>
    s.onRead fun answer s => withLatch .cmd s.cmd fun cmd =>
      .next (s.receive answer cmd fun value s => s.respond value)
  | .wrXfer | .slpXfer =>
    s.onWrite fun answer s => .next (s.acknowledge answer fun s => s.respond 0x0000#16)
  | .eeRead =>
    s.onRead fun answer s => withLatch .cmd s.cmd fun cmd => withLatch .val s.val fun val =>
      .next (s.receive answer cmd fun cur s =>
        if alreadyHolds cur val then s.respond 0x0000#16
        else s.sendWord .eeErase cmd Config.eraseValue)
  | .eeErase =>
    s.onWrite fun answer s => .next (s.acknowledge answer fun s => s.callDelay .eeWait1)
  | .eeWait1 =>
    s.onDelay fun s => withLatch .cmd s.cmd fun cmd => withLatch .val s.val fun val =>
      .next (s.sendWord .eeProg cmd val)
  | .eeProg =>
    s.onWrite fun answer s => .next (s.acknowledge answer fun s => s.callDelay .eeWait2)
  | .eeWait2 =>
    s.onDelay fun s => .next (s.respond 0x0000#16)

/-- At most so many steps of the sequencer. -/
def State.resumeUpTo : Nat → State → Result
  | 0, s => .next s
  | n + 1, s =>
    match s.resume with
    | .next s' => s'.resumeUpTo n
    | r => r

/-- A request makes at most three transport calls and two delays (43_persistent_writer.md R185). -/
def maxCalls : Nat := 5

/-- The sequencer runs until the request is answered, or until it waits on a call that the environment has not
answered (10_state.md R24, 92_eei_decisions.md D19, D28). -/
def State.drive (s : State) : Result :=
  s.resumeUpTo maxCalls

end Sys2Proof.Machine
end

