-- ==== Sys2Proof/Machine/PersistentWriter.lean ====
section
/-! DEFINITION. The persistent-register writer `WREE` (43_persistent_writer.md): read, compare, erase, wait, program,
wait. Its later steps stand in the sequencer, under the phases `EE_READ` to `EE_WAIT2` of 10_state.md R24. -/

namespace Sys2Proof.Machine

/-- `WREE sel, v` (R180, R181): step 1 reads the register; the sequencer does the rest. -/
def execWree (sel : Selector) (v : RegValue) (s : State) : Result :=
  ((s.accept sel (some v)).callRead .eeRead (s.cfg.code sel)).drive

end Sys2Proof.Machine
end

