-- ==== Sys2Proof/Machine/Transactions.lean ====
section
/-! DEFINITION. The framed transactions `RD16`, `WR16`, `SLP` (42_transactions.md). None checks the class of its
selector (R166). -/

namespace Sys2Proof.Machine

/-- `RD16 sel` (R160, R161). -/
def execRd16 (sel : Selector) (s : State) : Result :=
  ((s.accept sel none).callRead .rdXfer (s.cfg.code sel)).drive

/-- `WR16 sel, v` (R163, R164). -/
def execWr16 (sel : Selector) (v : RegValue) (s : State) : Result :=
  ((s.accept sel (some v)).sendWord .wrXfer (s.cfg.code sel) v).drive

/-- `SLP` (R165): the selector `SLEEP` is implied. -/
def execSlp (s : State) : Result :=
  ((s.accept .sleep none).sendSleep .slpXfer (s.cfg.code .sleep)).drive

end Sys2Proof.Machine
end

