-- ==== Sys2Proof/Machine/Dispatch.lean ====
section
/-! DEFINITION. One arm per constructor of `Instr`: each calls the meaning of its instruction. -/

namespace Sys2Proof.Machine

def exec (i : Instr) (s : State) : Host.Outcome State Fault Refusal :=
  match i with
  | .ckClr => Sys2Proof.Machine.execCkClr s
  | .ckUpd b => Sys2Proof.Machine.execCkUpd b s
  | .ckGet => Sys2Proof.Machine.execCkGet s
  | .cfgAddr a7 => Sys2Proof.Machine.execCfgAddr a7 s
  | .rd16 sel => Sys2Proof.Machine.execRd16 sel s
  | .wr16 sel v => Sys2Proof.Machine.execWr16 sel v s
  | .wree sel v => Sys2Proof.Machine.execWree sel v s
  | .slp => Sys2Proof.Machine.execSlp s
  | .cmdRawir1 => Sys2Proof.Machine.execCmdRawir1 s
  | .cmdRawir2 => Sys2Proof.Machine.execCmdRawir2 s
  | .cmdTa => Sys2Proof.Machine.execCmdTa s
  | .cmdTobj1 => Sys2Proof.Machine.execCmdTobj1 s
  | .cmdTobj2 => Sys2Proof.Machine.execCmdTobj2 s
  | .cmdTomax => Sys2Proof.Machine.execCmdTomax s
  | .cmdTomin => Sys2Proof.Machine.execCmdTomin s
  | .cmdPwmctrl => Sys2Proof.Machine.execCmdPwmctrl s
  | .cmdTarange => Sys2Proof.Machine.execCmdTarange s
  | .cmdEmiss => Sys2Proof.Machine.execCmdEmiss s
  | .cmdConfig1 => Sys2Proof.Machine.execCmdConfig1 s
  | .cmdSmbaddr => Sys2Proof.Machine.execCmdSmbaddr s
  | .cmdId1 => Sys2Proof.Machine.execCmdId1 s
  | .cmdId2 => Sys2Proof.Machine.execCmdId2 s
  | .cmdId3 => Sys2Proof.Machine.execCmdId3 s
  | .cmdId4 => Sys2Proof.Machine.execCmdId4 s
  | .cmdFlags => Sys2Proof.Machine.execCmdFlags s
  | .cmdSleep => Sys2Proof.Machine.execCmdSleep s

end Sys2Proof.Machine
end

