-- ==== Sys2Proof/Machine/Step.lean ====
section
/-! DEFINITION. One step of the machine: a reset, the acceptance of the next offered word, or the continuation of the
request in progress (10_state.md R24, R25; DESIGN CHOICE, log entries 1 and 11). -/

namespace Sys2Proof.Machine

/-- In `IDLE` the block accepts the next offered word and runs it; with nothing offered it waits. In every other
phase it goes on with its request and accepts nothing. -/
def step (s : State) : Host.Outcome State Fault Refusal :=
  if s.resetLine then s.takeReset
  else if s.phase = .idle then
    match s.inbox with
    | [] => .next s
    | o :: rest =>
      match decode s.cfg o with
      | .ok i => exec i { s with inbox := rest }
      | .error m => { s with inbox := rest }.refuseOffer m
  else s.drive

/-- `s` with a word of the opcode table offered first, so that the next step accepts it: no reset is asserted, and a
request in progress is given up, since a word is accepted in `IDLE` only (DESIGN CHOICE, log entry 2). -/
def State.withFetchWord (s : State) (nbits w : Nat) : State :=
  let ready := if s.phase = .idle then s else s.abandon
  { ready with resetLine := false, inbox := offerOf nbits w :: s.inbox }

end Sys2Proof.Machine
end

