-- ==== Sys2Proof/Machine/Assembler.lean ====
section
/-! DEFINITION. The assembler syntax of 30_encoding.md R87 and the pseudo-instruction `COMPUTE`
(40_checksum_engine.md R125). A line is a list of characters; one line is one request. -/

namespace Sys2Proof.Machine

/-- Why an assembler rejects a line (R87). -/
inductive AsmError where
  | unknownMnemonic | wrongOperands | badNumber | immediateTooWide | unknownSelector
  deriving DecidableEq, Repr

/-- The name of a selector (R99). -/
def selectorName : Selector → String
  | .rawir1 => "RAWIR1" | .rawir2 => "RAWIR2" | .ta => "TA" | .tobj1 => "TOBJ1" | .tobj2 => "TOBJ2"
  | .tomax => "TOMAX" | .tomin => "TOMIN" | .pwmctrl => "PWMCTRL" | .tarange => "TARANGE" | .emiss => "EMISS"
  | .config1 => "CONFIG1" | .smbaddr => "SMBADDR" | .id1 => "ID1" | .id2 => "ID2" | .id3 => "ID3" | .id4 => "ID4"
  | .flags => "FLAGS" | .sleep => "SLEEP"

/-- The value of a digit in a base up to 16. -/
def digitValue (base : Nat) (c : Char) : Option Nat :=
  let v :=
    if c.isDigit then some (c.toNat - 48)
    else if 'A' ≤ c && c ≤ 'F' then some (c.toNat - 55)
    else if 'a' ≤ c && c ≤ 'f' then some (c.toNat - 87)
    else none
  v.filter (· < base)

/-- A non-empty run of digits. -/
def digits (base : Nat) : List Char → Option Nat
  | [] => none
  | c :: cs =>
    (c :: cs).foldl (fun acc c => acc.bind fun n => (digitValue base c).map fun d => n * base + d) (some 0)

/-- A number: hexadecimal with `0x`, else decimal (R87). -/
def number : List Char → Option Nat
  | '0' :: 'x' :: cs => digits 16 cs
  | cs => digits 10 cs

/-- The words of a line: blanks separate them, and a comma is a word. -/
def words : List Char → List Char → List (List Char)
  | [], cur => if cur = [] then [] else [cur.reverse]
  | c :: cs, cur =>
    let done := if cur = [] then [] else [cur.reverse]
    if c = ' ' ∨ c = '\t' then done ++ words cs []
    else if c = ',' then done ++ [','] :: words cs []
    else words cs (c :: cur)

/-- An immediate operand: one that does not fit its field is rejected, never truncated (R87). -/
def immediate (width : Nat) (w : List Char) : Except AsmError (BitVec width) :=
  match number w with
  | none => .error .badNumber
  | some n => if fits width n then .ok (BitVec.ofNat width n) else .error .immediateTooWide

/-- A selector operand, by its name. -/
def selectorOperand (w : List Char) : Except AsmError Selector :=
  match Selector.all.find? (fun sel => (selectorName sel).toList == w) with
  | none => .error .unknownSelector
  | some sel => .ok sel

/-- `<mnemonic>` -/
def bareLine (args : List (List Char)) (i : Instr) : Except AsmError Instr :=
  match args with
  | [] => .ok i
  | _ => .error .wrongOperands

/-- `<mnemonic> <selector>, <imm16>` -/
def storeLine (args : List (List Char)) (i : Selector → RegValue → Instr) : Except AsmError Instr :=
  match args with
  | [sel, [','], v] => do return i (← selectorOperand sel) (← immediate 16 v)
  | _ => .error .wrongOperands

/-- The eight line forms of R87. -/
def assembleWords (mnemonic : List Char) (args : List (List Char)) : Except AsmError Instr :=
  if mnemonic = "CK.CLR".toList then bareLine args .ckClr
  else if mnemonic = "CK.UPD".toList then
    match args with
    | [b] => do return .ckUpd (← immediate 8 b)
    | _ => .error .wrongOperands
  else if mnemonic = "CK.GET".toList then bareLine args .ckGet
  else if mnemonic = "CFG.ADDR".toList then
    match args with
    | [a] => do return .cfgAddr (← immediate 7 a)
    | _ => .error .wrongOperands
  else if mnemonic = "RD16".toList then
    match args with
    | [sel] => do return .rd16 (← selectorOperand sel)
    | _ => .error .wrongOperands
  else if mnemonic = "WR16".toList then storeLine args .wr16
  else if mnemonic = "WREE".toList then storeLine args .wree
  else if mnemonic = "SLP".toList then bareLine args .slp
  else .error .unknownMnemonic

/-- One line: what follows a `;` is a comment, and a line with nothing else is no request (R87). -/
def assembleLine (line : List Char) : Except AsmError (Option Instr) :=
  match words (line.takeWhile (· != ';')) [] with
  | [] => .ok none
  | mnemonic :: args => (assembleWords mnemonic args).map some

/-- `COMPUTE {b0, ..., bn-1}` (R87, R125). -/
def expandCompute (s : List Byte) : List Instr :=
  .ckClr :: s.map .ckUpd

end Sys2Proof.Machine
end

