-- ==== Sys2Proof/Machine/Device.lean ====
section
/-! DEFINITION. `MockDevice`, the device model of 92_eei_decisions.md D29, and the block run against it. The device is
environment (20_memory.md R50): nothing of the block depends on this file. It stands here so that the scenarios S5,
S7 and S9 of 95_test_vectors.md can be stated (DESIGN CHOICE, log entry 7). -/

namespace Sys2Proof.Machine

/-- The device's register space in one canonical form: rising codes, no entry equal to what an unlisted code reads
as. -/
abbrev RegSpace := List (Nat × RegValue)

/-- What an unlisted code reads as (DESIGN CHOICE, log entry 7). -/
def RegSpace.unlisted : RegValue := 0x0000#16

/-- The canonical form. -/
def RegSpace.wf (m : RegSpace) : Bool :=
  decide (m.Pairwise fun a b => a.1 < b.1) && m.all fun e => e.2 != RegSpace.unlisted

/-- The value a code holds. -/
def RegSpace.read : RegSpace → Nat → RegValue
  | [], _ => RegSpace.unlisted
  | e :: m, k => if e.1 = k then e.2 else RegSpace.read m k

/-- An entry in front of a space, left out where it says no more than an unlisted code. -/
def RegSpace.put (k : Nat) (v : RegValue) (m : RegSpace) : RegSpace :=
  if v = RegSpace.unlisted then m else (k, v) :: m

/-- A code is given a value. -/
def RegSpace.write : RegSpace → Nat → RegValue → RegSpace
  | [], k, v => RegSpace.put k v []
  | e :: m, k, v =>
    if k < e.1 then RegSpace.put k v (e :: m)
    else if k = e.1 then RegSpace.put k v m
    else e :: RegSpace.write m k v

/-- `MockDevice`: a map from command code to value, and whether the device sleeps. -/
structure Device where
  regs : RegSpace
  asleep : Bool
  deriving DecidableEq, Repr

/-- A read answers the value and the checksum of the read frame; a sleeping device does not answer. -/
def Device.answerRead (d : Device) (a r : Byte) : ReadAnswer :=
  if d.asleep then .err
  else
    let v := d.regs.read r.toNat
    .ok [lowByte v, highByte v, compute [a, r, a ||| 0x01#8, lowByte v, highByte v]]

/-- A write whose checksum is right takes effect at once: three bytes store a value, the one byte of a sleep command
puts the device to sleep. What survives the sleep is not in the source (60_exceptions.md R226); here every register
does (DESIGN CHOICE, log entry 7). -/
def Device.takeWrite (d : Device) (sleepCode a r : Byte) (s : List Byte) : Device :=
  match s with
  | [lo, hi, pec] =>
    if compute [a, r, lo, hi] = pec then { d with regs := d.regs.write r.toNat (valueOfBytes lo hi) } else d
  | [pec] => if r = sleepCode ∧ compute [a, r] = pec then { d with asleep := true } else d
  | _ => d

/-- The block and the device on the far side of its ports. -/
structure System where
  block : State
  device : Device
  deriving DecidableEq, Repr

/-- The environment answers the call the block waits on. -/
def System.serve (sys : System) : System :=
  if sys.block.phase = .idle then sys
  else match sys.block.trace.getLast? with
  | some (.transportRead a r _ _) =>
    { sys with block := { sys.block with reads := sys.block.reads ++ [sys.device.answerRead a r] } }
  | some (.transportWrite a r s _) =>
    if sys.device.asleep then { sys with block := { sys.block with writes := sys.block.writes ++ [.err] } }
    else
      { block := { sys.block with writes := sys.block.writes ++ [.ok] }
        device := sys.device.takeWrite (sys.block.cfg.code .sleep) a r s }
  | some (.delay _) => { sys with block := { sys.block with delays := sys.block.delays + 1 } }
  | some (.response _) => sys
  | none => sys

/-- One step of the block and the environment's answer to the call it then waits on. -/
def System.step (sys : System) : Option System :=
  match Sys2Proof.Machine.step sys.block with
  | .next b => some { sys with block := b }.serve
  | .fault _ => none
  | .refused _ => none

/-- So many steps. -/
def System.run : Nat → System → Option System
  | 0, sys => some sys
  | n + 1, sys => sys.step.bind (System.run n)

end Sys2Proof.Machine
end

