-- ==== Sys2Proof/Machine/HostLayer.lean ====
section
/-! DEFINITION. The host layer that drives the block (44_host_layer.md; 00_scope.md R6: it stands on the host's side
of the request channel). Physical values are exact rationals (R197), kept as a numerator and a denominator so that
they are plain data. -/

namespace Sys2Proof.Machine

/-- An exact rational `num / den`; with `den = 0` it is no number (the NaN of R197). -/
structure Ratio where
  num : Int
  den : Nat
  deriving DecidableEq, Repr

/-- The rational a `Ratio` stands for. -/
def Ratio.toRat (q : Ratio) : Rat :=
  (q.num : Rat) / (q.den : Rat)

/-- The precondition `0.0 <= f <= 1.0` (R190); a NaN fails it (R197). -/
def Ratio.inUnit (q : Ratio) : Bool :=
  q.den != 0 && decide (0 ≤ q.num) && decide (q.num ≤ q.den)

/-- `n / d` rounded to the nearest integer, a half away from zero (R195, R196; 92_eei_decisions.md D16, D17). -/
def roundHalfAway (n : Int) (d : Nat) : Int :=
  if 0 ≤ n then (2 * n + d) / (2 * d) else -((-(2 * n) + d) / (2 * d))

/-- `raw_to_celsius(raw)`, exactly `(2 * raw - 27315) / 100` (R194). -/
def rawToCelsius (raw : RegValue) : Ratio :=
  ⟨2 * (raw.toNat : Int) - 27315, 100⟩

/-- `emissivity_to_raw(f) = round(f * 65535)` (R195), called with `f` in [0, 1] only (R190). -/
def emissivityToRaw (f : Ratio) : RegValue :=
  BitVec.ofInt 16 (roundHalfAway (f.num * 65535) f.den)

/-- `celsius_to_raw(t) = round(50 * t + 13657.5)` (R196), with no bound on the result. For a NaN, to which the spec
gives no result here, it is 0 (DESIGN CHOICE, log entry 16); no operation calls it. -/
def celsiusToRaw (t : Ratio) : Int :=
  roundHalfAway (100 * t.num + 27315 * t.den) (2 * t.den)

/-- How a public operation fails (R199, and the contract violation of R190). -/
inductive HostError where
  | transportError | checksumError | invalidRequest | invalidArgument
  deriving DecidableEq, Repr

/-- The host's reading of a status: every status but `OK` is no result (R198). -/
def Status.toHost : Status → Except HostError Unit
  | .ok => .ok ()
  | .transportError => .error .transportError
  | .checksumError => .error .checksumError
  | .invalidRequest => .error .invalidRequest

/-- The host sends one request and takes its response; none while the block has not answered yet. -/
def send (i : Instr) (s : State) : Option (State × Word) :=
  match step { s with inbox := encode s.cfg i :: s.inbox } with
  | .next t => t.pending.map fun rsp => (t, rsp)
  | .fault _ => none
  | .refused _ => none

/-- `configure_emissivity(f)` (R190): out of range, it fails and sends nothing. -/
def configureEmissivity (f : Ratio) (s : State) : Option (State × Except HostError Unit) :=
  if f.inUnit then
    (send (.wree .emiss (emissivityToRaw f)) s).map fun (t, rsp) => (t, (responseStatus rsp).toHost)
  else some (s, .error .invalidArgument)

/-- A temperature register read and converted (R191, R192): a failed read gives no temperature. -/
def readTemperature (sel : Selector) (s : State) : Option (State × Except HostError Ratio) :=
  (send (.rd16 sel) s).map fun (t, rsp) =>
    (t, (responseStatus rsp).toHost.map fun _ => rawToCelsius (responseValue rsp))

/-- `read_ambient_temperature()` (R191). -/
def readAmbientTemperature (s : State) : Option (State × Except HostError Ratio) :=
  readTemperature .ta s

/-- `read_object_temperature()` (R192). -/
def readObjectTemperature (s : State) : Option (State × Except HostError Ratio) :=
  readTemperature .tobj1 s

/-- `sleep()` (R193). -/
def sleepDevice (s : State) : Option (State × Except HostError Unit) :=
  (send .slp s).map fun (t, rsp) => (t, (responseStatus rsp).toHost)

end Sys2Proof.Machine
end

