-- ==== Sys2Proof/Safety.lean ====
section
/-! DEFINITION. What claims about runs are stated in: the legal states of the sequencer and its latches, the kinds of
event, the software discipline of 70_reset_and_hazards.md R249, and runs of several requests. -/

namespace Sys2Proof

/-- A request, as against a row of the command-code table. -/
def Instr.isRequest (i : Instr) : Bool :=
  i.lookup?.isNone

/-- The selectors software may use in each request (R249). The block does not check it. -/
def Instr.disciplined : Instr → Bool
  | .rd16 sel => Machine.regClass sel != .command
  | .wr16 sel _ | .wree sel _ => Machine.regClass sel == .persistent
  | .ckClr | .ckUpd _ | .ckGet | .cfgAddr _ | .slp => true
  | .cmdRawir1 | .cmdRawir2 | .cmdTa | .cmdTobj1 | .cmdTobj2 | .cmdTomax | .cmdTomin | .cmdPwmctrl | .cmdTarange
  | .cmdEmiss | .cmdConfig1 | .cmdSmbaddr | .cmdId1 | .cmdId2 | .cmdId3 | .cmdId4 | .cmdFlags | .cmdSleep => true

/-- The ways a request may end, its word being well formed (60_exceptions.md R216). -/
def Instr.endings : Instr → List Machine.Status
  | .ckClr | .ckUpd _ | .ckGet | .cfgAddr _ => [.ok]
  | .rd16 _ | .wree _ _ => [.ok, .transportError, .checksumError]
  | .wr16 _ _ | .slp => [.ok, .transportError]
  | .cmdRawir1 | .cmdRawir2 | .cmdTa | .cmdTobj1 | .cmdTobj2 | .cmdTomax | .cmdTomin | .cmdPwmctrl | .cmdTarange
  | .cmdEmiss | .cmdConfig1 | .cmdSmbaddr | .cmdId1 | .cmdId2 | .cmdId3 | .cmdId4 | .cmdFlags | .cmdSleep => []

end Sys2Proof

namespace Sys2Proof.Machine

/-- No latch holds a value (10_state.md R26). -/
abbrev State.latchesEmpty (s : State) : Prop :=
  s.sel = none ∧ s.cmd = none ∧ s.val = none ∧ s.lo = none ∧ s.hi = none ∧ s.pec = none ∧ s.cur = none ∧ s.tacc = none

/-- The block is ready for a request (10_state.md R24, R26). -/
abbrev State.Ready (s : State) : Prop :=
  s.phase = .idle ∧ s.latchesEmpty

/-- The latches that a transfer fills hold nothing yet. -/
def State.transferEmpty (s : State) : Prop :=
  s.lo = none ∧ s.hi = none ∧ s.pec = none ∧ s.cur = none ∧ s.tacc = none

/-- The latches hold the write frame's data and checksum (30_encoding.md R91). -/
def State.holdsWrite (s : State) (cmd : Byte) (v : RegValue) : Prop :=
  s.lo = some (lowByte v) ∧ s.hi = some (highByte v) ∧
    s.pec = some (compute (writeFrame s.addr cmd v)) ∧ s.tacc = some (compute (writeFrame s.addr cmd v))

/-- The last thing seen at the ports is the framed read's call. -/
def State.readCalled (s : State) (cmd : Byte) : Prop :=
  s.trace.getLast? = some (.transportRead (saw s.addr) cmd Config.readCount s.cfg.timeout)

/-- The last thing seen at the ports is the framed write's call. -/
def State.writeCalled (s : State) (cmd : Byte) (v : RegValue) : Prop :=
  s.trace.getLast? = some (.transportWrite (saw s.addr) cmd
    [lowByte v, highByte v, compute (writeFrame s.addr cmd v)] s.cfg.timeout)

/-- What the latches hold, and which call was made last, while the block waits on a call for the selector `sel`. -/
def State.waitsFor (s : State) (sel : Selector) : Prop :=
  match s.phase with
  | .idle => False
  | .rdXfer => s.val = none ∧ s.transferEmpty ∧ s.readCalled (s.cfg.code sel)
  | .wrXfer => s.cur = none ∧ ∃ v, s.val = some v ∧ s.holdsWrite (s.cfg.code sel) v ∧
      s.writeCalled (s.cfg.code sel) v
  | .slpXfer => sel = .sleep ∧ s.val = none ∧ s.lo = none ∧ s.hi = none ∧ s.cur = none ∧
      s.pec = some (compute (sleepFrame s.addr (s.cfg.code sel))) ∧
      s.tacc = some (compute (sleepFrame s.addr (s.cfg.code sel))) ∧
      s.trace.getLast? = some (.transportWrite (saw s.addr) (s.cfg.code sel)
        [compute (sleepFrame s.addr (s.cfg.code sel))] s.cfg.timeout)
  | .eeRead => (∃ v, s.val = some v) ∧ s.transferEmpty ∧ s.readCalled (s.cfg.code sel)
  | .eeErase => ∃ v cur, s.val = some v ∧ s.cur = some cur ∧ cur ≠ v ∧
      s.holdsWrite (s.cfg.code sel) Config.eraseValue ∧ s.writeCalled (s.cfg.code sel) Config.eraseValue
  | .eeWait1 => ∃ v cur, s.val = some v ∧ s.cur = some cur ∧ cur ≠ v ∧
      s.holdsWrite (s.cfg.code sel) Config.eraseValue ∧ s.trace.getLast? = some (.delay Config.settle)
  | .eeProg => ∃ v cur, s.val = some v ∧ s.cur = some cur ∧ cur ≠ v ∧
      s.holdsWrite (s.cfg.code sel) v ∧ s.writeCalled (s.cfg.code sel) v
  | .eeWait2 => ∃ v cur, s.val = some v ∧ s.cur = some cur ∧ cur ≠ v ∧
      s.holdsWrite (s.cfg.code sel) v ∧ s.trace.getLast? = some (.delay Config.settle)

/-- The legal states: in `IDLE` no latch holds a value; in every other phase no response is pending, `SEL` and `CMD`
name one selector, the latches hold what the phase's frame says, and the last call made is the one waited on. -/
def State.Sound (s : State) : Prop :=
  (s.phase = .idle ∧ s.latchesEmpty) ∨
    (s.pending = none ∧ ∃ sel : Selector, s.sel = some sel.number ∧ s.cmd = some (s.cfg.code sel) ∧ s.waitsFor sel)

/-- A call at the transport port. -/
def Event.isTransport : Event → Bool
  | .transportRead _ _ _ _ | .transportWrite _ _ _ _ => true
  | .delay _ | .response _ => false

/-- A call at the delay port. -/
def Event.isDelay : Event → Bool
  | .delay _ => true
  | .transportRead _ _ _ _ | .transportWrite _ _ _ _ | .response _ => false

/-- A response. -/
def Event.isResponse : Event → Bool
  | .response _ => true
  | .transportRead _ _ _ _ | .transportWrite _ _ _ _ | .delay _ => false

/-- A request word is refused: offered to a ready block, it is answered with `InvalidRequest` and value 0x0000, and
nothing else happens (30_encoding.md R85, 60_exceptions.md R213). -/
def RefusesWord (w : Word) : Prop :=
  ∀ (s : State) (rest : List Offer), s.Ready → s.resetLine = false → s.inbox = .req32 w :: rest →
    step s = .next { s with
      inbox := rest
      pending := some 0x00030000#32
      trace := s.trace ++ [.response 0x00030000#32] }

/-- Of the words with one opcode, those that do not match a pattern under a mask are refused (30_encoding.md R84, R85). -/
def RefusesOtherWords (op : BitVec 4) (mask pattern : Word) : Prop :=
  ∀ w : Word, w.extractLsb' 28 4 = op → w &&& mask ≠ pattern → RefusesWord w

/-- Of the words with one opcode, those that name a selector 18 to 31 are refused (30_encoding.md R85 (d)). -/
def RefusesReservedSelectors (op : BitVec 4) : Prop :=
  ∀ w : Word, w.extractLsb' 28 4 = op → 18 ≤ (w.extractLsb' 16 5).toNat → RefusesWord w

/-- A request carried out in a state ends there, with a status. -/
def EndsWith (i : Instr) (s : State) (st : Status) : Prop :=
  ∃ t rsp, exec i s = .next t ∧ t.phase = .idle ∧ t.pending = some rsp ∧ responseStatus rsp = st

/-- Requests carried out one after another, each to its response, in the order given (10_state.md R25); none where
one stops or is left waiting. -/
def execAll : List Instr → State → Option State
  | [], s => some s
  | i :: is, s =>
    match exec i s with
    | .next t => if t.phase = .idle then execAll is t else none
    | .fault _ => none
    | .refused _ => none

/-- The next state, where there is one. -/
def nextState : Result → Option State
  | .next s => some s
  | .fault _ => none
  | .refused _ => none

end Sys2Proof.Machine
end

