-- ==== Sys2Proof/Certificates/Slice0/Obligations.lean ====
section
/-! DEFINITION. The statements for the provers. In all of them `s.cfg` is any choice of the parameters (00_scope.md
R8), and the environment's answers are any lists: nothing depends on which ones (20_memory.md R50). Where a next state
is written out as `{ s with … }`, every field of the state not named is unchanged. Where `exec` is applied to every state, that it
answers outside `IDLE` too is the model's choice (log entry 15): the hardware accepts a request in `IDLE` alone. -/

open Sys2Proof Sys2Proof.Machine

/-! ## Encodings -/

/-- Every instruction of the table is read back from the word it is written as, with every operand, under every
`CMD_CODE` that is an enumeration (30_encoding.md R80, R81, R84, R100). -/
def Obligations.DecodeOfEncodeIsTheInstruction : Prop :=
  ∀ cfg : Config, cfg.wellFormed = true → ∀ i : Instr, decode cfg (encode cfg i) = .ok i

/-- No two words stand for one instruction: a word that decodes is the word its instruction is written as, so no bit
of a request is ignored (30_encoding.md R84, R85). -/
def Obligations.EachWordHasOneMeaning : Prop :=
  ∀ (cfg : Config) (o : Offer) (i : Instr), decode cfg o = .ok i → encode cfg i = o

/-- 30_encoding.md R84: a word spells the operation of a row exactly when `(w AND mask) == match` and, for `RD16`,
`WR16` and `WREE`, the selector is at most 17; the operands are the fields. -/
def Obligations.WordSpellsItsRow : Prop :=
  (∀ w : Word, w &&& 0xFFFFFFFF#32 = 0x10000000#32 ↔ decodeRequest w = .ok .ckClr) ∧
  (∀ w : Word, w &&& 0xFFFFFF00#32 = 0x20000000#32 ↔ decodeRequest w = .ok (.ckUpd (w.extractLsb' 0 8))) ∧
  (∀ w : Word, w &&& 0xFFFFFFFF#32 = 0x30000000#32 ↔ decodeRequest w = .ok .ckGet) ∧
  (∀ w : Word, w &&& 0xFFFFFF80#32 = 0x40000000#32 ↔ decodeRequest w = .ok (.cfgAddr (w.extractLsb' 0 7))) ∧
  (∀ w : Word, (w &&& 0xFFE0FFFF#32 = 0x80000000#32 ∧ (w.extractLsb' 16 5).toNat ≤ 17) ↔
    ∃ sel : Selector, sel.number = w.extractLsb' 16 5 ∧ decodeRequest w = .ok (.rd16 sel)) ∧
  (∀ w : Word, (w &&& 0xFFE00000#32 = 0x90000000#32 ∧ (w.extractLsb' 16 5).toNat ≤ 17) ↔
    ∃ sel : Selector, sel.number = w.extractLsb' 16 5 ∧ decodeRequest w = .ok (.wr16 sel (w.extractLsb' 0 16))) ∧
  (∀ w : Word, (w &&& 0xFFE00000#32 = 0xA0000000#32 ∧ (w.extractLsb' 16 5).toNat ≤ 17) ↔
    ∃ sel : Selector, sel.number = w.extractLsb' 16 5 ∧ decodeRequest w = .ok (.wree sel (w.extractLsb' 0 16))) ∧
  (∀ w : Word, w &&& 0xFFFFFFFF#32 = 0xB0000000#32 ↔ decodeRequest w = .ok .slp)

/-- 30_encoding.md R85: a request word is rejected exactly when one of (a) to (e) holds, and a rejected word offered in
`IDLE` is answered with `InvalidRequest` and value 0x0000, with no call and no register changed. The all-zero and
the all-ones word are rejected. -/
def Obligations.MalformedWordsAreRefused : Prop :=
  (∀ w : Word, (∃ m, decodeRequest w = .error m) ↔
    ((w.extractLsb' 28 4).toNat ∈ [0x0, 0x5, 0x6, 0x7, 0xC, 0xD, 0xE, 0xF] ∨
     w.extractLsb' 21 7 ≠ 0 ∨
     ((w.extractLsb' 28 4).toNat ∈ [0x1, 0x2, 0x3, 0x4, 0xB] ∧ w.extractLsb' 16 5 ≠ 0) ∨
     ((w.extractLsb' 28 4).toNat ∈ [0x8, 0x9, 0xA] ∧ 18 ≤ (w.extractLsb' 16 5).toNat) ∨
     ((w.extractLsb' 28 4).toNat ∈ [0x1, 0x3, 0x8, 0xB] ∧ w.extractLsb' 0 16 ≠ 0) ∨
     ((w.extractLsb' 28 4).toNat = 0x2 ∧ w.extractLsb' 8 8 ≠ 0) ∨
     ((w.extractLsb' 28 4).toNat = 0x4 ∧ w.extractLsb' 7 9 ≠ 0))) ∧
  (∀ (w : Word) (m : Malformed), decodeRequest w = .error m → RefusesWord w) ∧
  (∃ m, decodeRequest 0x00000000#32 = .error m) ∧ (∃ m, decodeRequest 0xFFFFFFFF#32 = .error m)

/-- The one-line examples of 30_encoding.md R102 (marked derived there) decode to the requests they stand for. -/
def Obligations.ExampleWordsDecode : Prop :=
  [0x10000000#32, 0x200000B4#32, 0x30000000#32, 0x4000005A#32, 0x80020000#32, 0x80030000#32, 0x90098000#32,
    0xA0098000#32, 0xB0000000#32].map (fun w => (decodeRequest w).toOption) =
  [some .ckClr, some (.ckUpd 0xB4#8), some .ckGet, some (.cfgAddr 0x5A#7), some (.rd16 .ta), some (.rd16 .tobj1),
    some (.wr16 .emiss 0x8000#16), some (.wree .emiss 0x8000#16), some .slp]

/-- The default `CMD_CODE` (30_encoding.md R100; the numbers are general knowledge, log entry 8) is an enumeration, and
the selectors are numbered 0 to 17 in its order. Under any `CMD_CODE` that is an enumeration a byte spells a row
exactly if it is that row's code, and it spells nothing else (that a byte is offered by itself is the model's choice,
log entry 3). -/
def Obligations.DefaultCommandCodes : Prop :=
  Config.default.wellFormed = true ∧
  Selector.all.map Config.default.code =
    [0x04#8, 0x05#8, 0x06#8, 0x07#8, 0x08#8, 0x20#8, 0x21#8, 0x22#8, 0x23#8, 0x24#8, 0x25#8, 0x2E#8, 0x3C#8, 0x3D#8,
      0x3E#8, 0x3F#8, 0xF0#8, 0xFF#8] ∧
  Selector.all.map (fun sel => sel.number.toNat) = List.range 18 ∧
  ∀ cfg : Config, cfg.wellFormed = true → ∀ b : Byte,
    (∀ sel : Selector, decode cfg (.cmd8 b) = .ok sel.row ↔ cfg.code sel = b) ∧
    ∀ i : Instr, decode cfg (.cmd8 b) = .ok i → ∃ sel : Selector, i = sel.row

/-- The classes of the 18 selectors: 0 to 4 volatile, 5 to 15 persistent, 16 status, 17 command (41_encoder.md R144, marked
derived there; 30_encoding.md R99, 90_conflicts.md C1, C2). -/
def Obligations.SelectorClasses : Prop :=
  ∀ sel : Selector,
    (regClass sel = .volatile ↔ sel.number.toNat ≤ 4) ∧
    (regClass sel = .persistent ↔ 5 ≤ sel.number.toNat ∧ sel.number.toNat ≤ 15) ∧
    (regClass sel = .status ↔ sel.number.toNat = 16) ∧ (regClass sel = .command ↔ sel.number.toNat = 17)

/-- The assembler rejects an immediate that does not fit its field and takes any other as the number it spells, in each
line form that has one: 8 bits in `CK.UPD`, 7 in `CFG.ADDR`, 16 in `WR16` and `WREE` (30_encoding.md R87; how a line is cut
into words is log entry 18). -/
def Obligations.AssemblerNeverTruncates : Prop :=
  ∀ (width n : Nat) (word : List Char), number word = some n →
    (2 ^ width ≤ n → immediate width word = .error .immediateTooWide) ∧
    (n < 2 ^ width → ∃ v : BitVec width, immediate width word = .ok v ∧ v.toNat = n) ∧
    (assembleWords "CK.UPD".toList [word] =
      if n < 256 then .ok (.ckUpd (BitVec.ofNat 8 n)) else .error .immediateTooWide) ∧
    (assembleWords "CFG.ADDR".toList [word] =
      if n < 128 then .ok (.cfgAddr (BitVec.ofNat 7 n)) else .error .immediateTooWide) ∧
    ∀ sel : Selector,
      (assembleWords "WR16".toList [(selectorName sel).toList, [','], word] =
        if n < 65536 then .ok (.wr16 sel (BitVec.ofNat 16 n)) else .error .immediateTooWide) ∧
      (assembleWords "WREE".toList [(selectorName sel).toList, [','], word] =
        if n < 65536 then .ok (.wree sel (BitVec.ofNat 16 n)) else .error .immediateTooWide)

/-! ## Steps and reset -/

/-- In `IDLE`, with no reset, the next offered word that decodes is taken and its instruction is run. That an 8-bit
command code may be offered (log entry 3), that the instruction runs on within the step as far as the answers reach
(log entry 1) and that a reset comes first (log entry 11) are the model's choices. -/
def Obligations.StepRunsTheDecodedInstruction : Prop :=
  ∀ (s : State) (o : Offer) (rest : List Offer) (i : Instr),
    s.resetLine = false → s.phase = .idle → s.inbox = o :: rest → decode s.cfg o = .ok i →
    step s = exec i { s with inbox := rest }

/-- A request is accepted in `IDLE` only (10_state.md R24): in `IDLE` with nothing offered the block waits; in every
other phase a step takes nothing from the host channel and does not depend on what is offered there. -/
def Obligations.RequestsAreAcceptedOnlyInIdle : Prop :=
  (∀ s : State, s.resetLine = false → s.phase = .idle → s.inbox = [] → step s = .next s) ∧
  (∀ (s t : State) (offers : List Offer), s.resetLine = false → s.phase ≠ .idle → step s = .next t →
    t.inbox = s.inbox ∧ step { s with inbox := offers } = .next { t with inbox := offers })

/-- 70_reset_and_hazards.md R240: reset takes `ADDR` to 0x5A (`DEFAULT_ADDR`), `ACC` to 0x00 and `PHASE` to `IDLE`,
every latch loses its value and no response is pending; afterwards the block waits for the first request. The model's
choices in it: the reset input comes before an offered word, is cleared by the step and leaves the offered words, the
answers and the observations alone (log entry 11), and nothing is offered in `State.reset` (log entry 13). -/
def Obligations.ResetLeavesTheBlockReady : Prop :=
  (∀ s : State, s.phase = .idle → s.resetLine = true →
    step s = .next { s with
      addr := s.cfg.defaultAddr, acc := 0x00#8, phase := .idle, sel := none, cmd := none, val := none, lo := none,
      hi := none, pec := none, cur := none, tacc := none, pending := none, resetLine := false }) ∧
  Config.default.defaultAddr = 0x5A#7 ∧
  State.reset.cfg = Config.default ∧ State.reset.addr = 0x5A#7 ∧ State.reset.acc = 0x00#8 ∧ State.reset.Ready ∧
  State.reset.pending = none ∧ step State.reset = .next State.reset

/-- A reset while a request is in progress is given no meaning, as 70_reset_and_hazards.md R241 and 93_implementation_defined.md
U14 ask of a model (that it is a refusal by `step` is log entry 11). -/
def Obligations.ResetMidRequestHasNoMeaning : Prop :=
  ∀ s : State, s.phase ≠ .idle → s.resetLine = true → step s = .refused .resetInProgress

/-! ## The checksum -/

/-- 40_checksum_engine.md R120: one XOR, then eight rounds; the high bit is tested before the shift, 0x07 is XORed in
after it, and the bit shifted in is zero. -/
def Obligations.ChecksumStepIsEightRounds : Prop :=
  ∀ acc b : Byte,
    let r : Byte → Byte := fun a => if a.getLsbD 7 then (a <<< 1) ^^^ 0x07#8 else a <<< 1
    ck8Step acc b = r (r (r (r (r (r (r (r (acc ^^^ b)))))))) ∧ ∀ a : Byte, (a <<< 1).getLsbD 0 = false

/-- 40_checksum_engine.md R121: `compute` starts from 0x00 and absorbs the bytes first to last, with nothing done at
the end. -/
def Obligations.ComputeAbsorbsFirstToLast : Prop :=
  compute [] = 0x00#8 ∧ ∀ (s : List Byte) (b : Byte), compute (s ++ [b]) = ck8Step (compute s) b

/-- The bit-parallel form and the table form are the same function (40_checksum_engine.md R127, R128, marked derived
there). -/
def Obligations.ParallelAndTableFormsAgree : Prop :=
  ∀ acc b : Byte, ck8StepParallel acc b = ck8Step acc b ∧ ck8Table[(acc ^^^ b).toNat]? = some (ck8Step acc b)

/-- The checksum is linear over XOR, byte by byte (40_checksum_engine.md R129 laws 2 and 3, marked derived there). -/
def Obligations.ChecksumIsLinear : Prop :=
  (∀ a₁ a₂ b₁ b₂ : Byte, ck8Step (a₁ ^^^ a₂) (b₁ ^^^ b₂) = ck8Step a₁ b₁ ^^^ ck8Step a₂ b₂) ∧
  (∀ s t : List Byte, s.length = t.length → compute (List.zipWith (· ^^^ ·) s t) = compute s ^^^ compute t) ∧
  (∀ acc b : Byte, ck8Step acc b = ck8Step 0x00#8 (acc ^^^ b) ∧ ck8Step acc b = ck8Step (acc ^^^ b) 0x00#8)

/-- Leading zero bytes are invisible, and a sequence followed by its checksum has checksum zero (40_checksum_engine.md R129 laws
4 and 5, marked derived there). -/
def Obligations.ChecksumResidueIsZero : Prop :=
  ∀ s : List Byte, compute (0x00#8 :: s) = compute s ∧ compute (s ++ [compute s]) = 0x00#8

/-- Changing one byte of a sequence changes its checksum (40_checksum_engine.md R129 law 6, marked derived there). -/
def Obligations.OneChangedByteChangesTheChecksum : Prop :=
  (∀ b : Byte, Function.Bijective fun acc => ck8Step acc b) ∧
  (∀ acc : Byte, Function.Bijective fun b => ck8Step acc b) ∧
  (∀ (before after : List Byte) (b b' : Byte), b ≠ b' →
    compute (before ++ b :: after) ≠ compute (before ++ b' :: after))

/-! ## The streaming generator and the encoder -/

/-- 40_checksum_engine.md R122: `CK.CLR` sets `ACC` to 0x00 and responds OK with 0x0000; with any other bit set the word is
refused. -/
def Obligations.ClearSetsAccToZero : Prop :=
  (∀ s : State, s.Ready →
    exec .ckClr s = .next { s with
      acc := 0x00#8, pending := some 0x00000000#32, trace := s.trace ++ [.response 0x00000000#32] }) ∧
  RefusesOtherWords 0x1 0xFFFFFFFF#32 0x10000000#32

/-- 40_checksum_engine.md R123: `CK.UPD b` sets `ACC` to `ck8_step(ACC, b)` and responds OK with the new accumulator; a
byte equal to `ACC` gives 0x00; with another bit set the word is refused. -/
def Obligations.UpdateAbsorbsOneByte : Prop :=
  (∀ (s : State) (b : Byte), s.Ready →
    exec (.ckUpd b) s = .next { s with
      acc := ck8Step s.acc b
      pending := some (0x000000#24 ++ ck8Step s.acc b)
      trace := s.trace ++ [.response (0x000000#24 ++ ck8Step s.acc b)] }) ∧
  (∀ b : Byte, ck8Step b b = 0x00#8) ∧
  RefusesOtherWords 0x2 0xFFFFFF00#32 0x20000000#32

/-- 40_checksum_engine.md R124: `CK.GET` responds OK with `ACC` and changes no register; after reset it returns 0x00; with any
other bit set the word is refused. -/
def Obligations.GetReadsAcc : Prop :=
  (∀ s : State, s.Ready →
    exec .ckGet s = .next { s with
      pending := some (0x000000#24 ++ s.acc), trace := s.trace ++ [.response (0x000000#24 ++ s.acc)] }) ∧
  (∃ t, exec .ckGet State.reset = .next t ∧ t.pending = some 0x00000000#32) ∧
  RefusesOtherWords 0x3 0xFFFFFFFF#32 0x30000000#32

/-- 41_encoder.md R146: `CFG.ADDR a7` sets `ADDR` to `a7`, any of its 128 values, and responds OK with it; it makes no
call. A word that spells a wider address is refused, not masked. -/
def Obligations.ConfigureSetsAddr : Prop :=
  (∀ (s : State) (a7 : BusAddr), s.Ready →
    exec (.cfgAddr a7) s = .next { s with
      addr := a7
      pending := some (0x000000#25 ++ a7)
      trace := s.trace ++ [.response (0x000000#25 ++ a7)] }) ∧
  RefusesOtherWords 0x4 0xFFFFFF80#32 0x40000000#32

/-- A row of the command-code table run by itself puts out the code of its selector and changes no register and no
port (41_encoder.md R143, R145; that a row can be run by itself is the model's choice, log entry 3). -/
def Obligations.CommandRowsPutOutTheirCodes : Prop :=
  ∀ s : State,
    let out (sel : Selector) : Result := .next { s with codes := s.codes ++ [s.cfg.code sel] }
    exec .cmdRawir1 s = out .rawir1 ∧ exec .cmdRawir2 s = out .rawir2 ∧ exec .cmdTa s = out .ta ∧
    exec .cmdTobj1 s = out .tobj1 ∧ exec .cmdTobj2 s = out .tobj2 ∧ exec .cmdTomax s = out .tomax ∧
    exec .cmdTomin s = out .tomin ∧ exec .cmdPwmctrl s = out .pwmctrl ∧ exec .cmdTarange s = out .tarange ∧
    exec .cmdEmiss s = out .emiss ∧ exec .cmdConfig1 s = out .config1 ∧ exec .cmdSmbaddr s = out .smbaddr ∧
    exec .cmdId1 s = out .id1 ∧ exec .cmdId2 s = out .id2 ∧ exec .cmdId3 s = out .id3 ∧
    exec .cmdId4 s = out .id4 ∧ exec .cmdFlags s = out .flags ∧ exec .cmdSleep s = out .sleep

/-- The address bytes are twice the address, and twice the address plus one (41_encoder.md R140, R141). -/
def Obligations.AddressBytesEmbedTheDirection : Prop :=
  ∀ a : BusAddr, (saw a).toNat = 2 * a.toNat ∧ (sar a).toNat = 2 * a.toNat + 1 ∧
    saw a = a ++ 0#1 ∧ sar a = a ++ 1#1

/-- 20_memory.md R56: a value is its low byte plus 256 times its high byte and is split so; on the port the low byte goes
first, both ways. `WR16` sends the low byte, the high byte and then the checksum, and the value `RD16` returns has the
first byte received as its low byte and the second as its high byte. -/
def Obligations.ValuesAreLittleEndian : Prop :=
  (∀ lo hi : Byte, (valueOfBytes lo hi).toNat = lo.toNat + 256 * hi.toNat ∧
    lowByte (valueOfBytes lo hi) = lo ∧ highByte (valueOfBytes lo hi) = hi) ∧
  (∀ v : RegValue, valueOfBytes (lowByte v) (highByte v) = v) ∧
  (∀ (s : State) (sel : Selector) (lo hi : Byte), ∃ t more,
    exec (.wr16 sel (valueOfBytes lo hi)) s = .next t ∧
    t.trace = s.trace ++ .transportWrite (saw s.addr) (s.cfg.code sel)
      [lo, hi, compute [saw s.addr, s.cfg.code sel, lo, hi]] s.cfg.timeout :: more) ∧
  (∀ (s : State) (sel : Selector) (lo hi pec : Byte) (rest : List ReadAnswer),
    s.reads = .ok [lo, hi, pec] :: rest → compute [saw s.addr, s.cfg.code sel, sar s.addr, lo, hi] = pec →
    ∃ t rsp, exec (.rd16 sel) s = .next t ∧ t.pending = some rsp ∧ responseStatus rsp = .ok ∧
      (responseValue rsp).toNat = lo.toNat + 256 * hi.toNat)

/-- `CK.CLR` and then one `CK.UPD` per byte leave `compute` of the bytes in `ACC` and in the last response, and make no
call; one more byte continues the sequence (40_checksum_engine.md R125, marked derived there). -/
def Obligations.StreamingComputesTheChecksum : Prop :=
  (∀ (s : State) (bytes : List Byte), ∃ t : State,
    execAll (expandCompute bytes) s = some t ∧ t.acc = compute bytes ∧
      t.pending = some (0x000000#24 ++ compute bytes) ∧ t.addr = s.addr ∧ t.cfg = s.cfg ∧
      ∃ new : List Event, t.trace = s.trace ++ new ∧ new.length = bytes.length + 1 ∧
        ∀ e ∈ new, e.isResponse = true) ∧
  (∀ (s t : State) (bytes : List Byte) (b : Byte), s.acc = compute bytes → exec (.ckUpd b) s = .next t →
    t.acc = compute (bytes ++ [b]))

/-! ## Who writes the registers -/

/-- `ADDR` is written by `CFG.ADDR` and reset alone, `ACC` by `CK.CLR`, `CK.UPD` and reset alone, and nothing changes a
parameter (10_state.md R21, R22; 00_scope.md R8): over one step from any state. -/
def Obligations.RegistersChangeOnlyByTheirRequests : Prop :=
  ∀ s t : State, step s = .next t →
    t.cfg = s.cfg ∧
    (t.addr ≠ s.addr → s.phase = .idle ∧ (s.resetLine = true ∨
      ∃ o rest a7, s.inbox = o :: rest ∧ decode s.cfg o = .ok (.cfgAddr a7) ∧ t.addr = a7)) ∧
    (t.acc ≠ s.acc → s.phase = .idle ∧ (s.resetLine = true ∨
      ∃ o rest, s.inbox = o :: rest ∧ (decode s.cfg o = .ok .ckClr ∨ ∃ b, decode s.cfg o = .ok (.ckUpd b))))

/-- No transaction and no `CFG.ADDR` reads or writes `ACC` (10_state.md R22, 40_checksum_engine.md R126): with another
accumulator the outcome is the same, and the accumulator is kept. -/
def Obligations.TransactionsLeaveNoTraceOnAcc : Prop :=
  ∀ (i : Instr) (s t : State) (acc : Byte), i ≠ .ckClr → i ≠ .ckGet → (∀ b, i ≠ .ckUpd b) → exec i s = .next t →
    t.acc = s.acc ∧ exec i { s with acc := acc } = .next { t with acc := acc }

/-! ## The framed transactions -/

/-- 42_transactions.md R160: `RD16` makes one `TransportRead` and, once that is answered, returns the value if the
checksum of the read frame is the one received, and otherwise ends in `ChecksumError`, or in `TransportError` when
the answer is `Err` or not three bytes. A malformed word with its opcode is refused before any call. -/
def Obligations.ReadWordChecksTheFrame : Prop :=
  RefusesOtherWords 0x8 0xFFE0FFFF#32 0x80000000#32 ∧ RefusesReservedSelectors 0x8 ∧
  ∀ (s : State) (sel : Selector) (rest : List ReadAnswer), s.Ready →
    let cmd := s.cfg.code sel
    let done (rsp : Word) : Result := .next { s with
      reads := rest
      pending := some rsp
      codes := s.codes ++ [cmd]
      trace := s.trace ++ [.transportRead (saw s.addr) cmd 3 s.cfg.timeout, .response rsp] }
    (∀ lo hi pec : Byte, s.reads = .ok [lo, hi, pec] :: rest →
      compute [saw s.addr, cmd, sar s.addr, lo, hi] = pec →
      exec (.rd16 sel) s = done (0x0000#16 ++ valueOfBytes lo hi)) ∧
    (∀ lo hi pec : Byte, s.reads = .ok [lo, hi, pec] :: rest →
      compute [saw s.addr, cmd, sar s.addr, lo, hi] ≠ pec →
      exec (.rd16 sel) s = done 0x00020000#32) ∧
    (∀ bytes : List Byte, s.reads = .ok bytes :: rest → bytes.length ≠ 3 →
      exec (.rd16 sel) s = done 0x00010000#32) ∧
    (s.reads = .err :: rest → exec (.rd16 sel) s = done 0x00010000#32)

/-- A read whose answer differs in exactly one byte from the answer of a device that computes the same checksum over
the same frame fails with `ChecksumError` (42_transactions.md R161, last sentence). -/
def Obligations.OneCorruptedByteFailsTheRead : Prop :=
  ∀ (s : State) (sel : Selector) (lo hi pec lo' hi' pec' : Byte) (rest : List ReadAnswer), s.Ready →
    compute [saw s.addr, s.cfg.code sel, sar s.addr, lo, hi] = pec →
    ((lo' ≠ lo ∧ hi' = hi ∧ pec' = pec) ∨ (lo' = lo ∧ hi' ≠ hi ∧ pec' = pec) ∨ (lo' = lo ∧ hi' = hi ∧ pec' ≠ pec)) →
    s.reads = .ok [lo', hi', pec'] :: rest →
    ∃ t, exec (.rd16 sel) s = .next t ∧ t.phase = .idle ∧ t.pending = some 0x00020000#32

/-- 42_transactions.md R163: `WR16` sends the two bytes of the value, low byte first, and the checksum of the write
frame in one `TransportWrite`, and responds OK, or `TransportError` when the call fails. A malformed word with its
opcode is refused before any call. -/
def Obligations.WriteWordSendsTheFrame : Prop :=
  RefusesOtherWords 0x9 0xFFE00000#32 0x90000000#32 ∧ RefusesReservedSelectors 0x9 ∧
  ∀ (s : State) (sel : Selector) (v : RegValue) (rest : List WriteAnswer), s.Ready →
    let cmd := s.cfg.code sel
    let lo := v.extractLsb' 0 8
    let hi := v.extractLsb' 8 8
    let done (rsp : Word) : Result := .next { s with
      writes := rest
      pending := some rsp
      codes := s.codes ++ [cmd]
      trace := s.trace ++ [.transportWrite (saw s.addr) cmd [lo, hi, compute [saw s.addr, cmd, lo, hi]] s.cfg.timeout,
        .response rsp] }
    (s.writes = .ok :: rest → exec (.wr16 sel v) s = done 0x00000000#32) ∧
    (s.writes = .err :: rest → exec (.wr16 sel v) s = done 0x00010000#32)

/-- 42_transactions.md R165: `SLP` sends the checksum of the sleep frame in one `TransportWrite` addressed at the sleep
command, and responds OK, or `TransportError` when the call fails. A word with any other bit set is refused. -/
def Obligations.SleepSendsOneChecksumByte : Prop :=
  RefusesOtherWords 0xB 0xFFFFFFFF#32 0xB0000000#32 ∧
  ∀ (s : State) (rest : List WriteAnswer), s.Ready →
    let cmd := s.cfg.code .sleep
    let done (rsp : Word) : Result := .next { s with
      writes := rest
      pending := some rsp
      codes := s.codes ++ [cmd]
      trace := s.trace ++ [.transportWrite (saw s.addr) cmd [compute [saw s.addr, cmd]] s.cfg.timeout,
        .response rsp] }
    (s.writes = .ok :: rest → exec .slp s = done 0x00000000#32) ∧
    (s.writes = .err :: rest → exec .slp s = done 0x00010000#32)

/-- A transaction whose first call is not answered yet waits in the phase of that call, the call made and the latches
written (10_state.md R24, R26). The model's choices in it: that the block waits so (log entry 1), in `EE_READ` in the read of
`WREE` (log entry 5), with `SEL` at 17 in `SLP` and `TACC` keeping the checksum (log entry 6), and with an earlier response
withdrawn (log entry 12). -/
def Obligations.TransactionsWaitForTheirAnswer : Prop :=
  ∀ (s : State) (sel : Selector) (v : RegValue), s.Ready →
    let at_ (x : Selector) : State :=
      { s with
        sel := some x.number, cmd := some (s.cfg.code x), pending := none, codes := s.codes ++ [s.cfg.code x] }
    (s.reads = [] → exec (.rd16 sel) s = .next { at_ sel with
      phase := .rdXfer
      trace := s.trace ++ [.transportRead (saw s.addr) (s.cfg.code sel) 3 s.cfg.timeout] }) ∧
    (s.reads = [] → exec (.wree sel v) s = .next { at_ sel with
      phase := .eeRead, val := some v
      trace := s.trace ++ [.transportRead (saw s.addr) (s.cfg.code sel) 3 s.cfg.timeout] }) ∧
    (s.writes = [] →
      let pec := compute [saw s.addr, s.cfg.code sel, v.extractLsb' 0 8, v.extractLsb' 8 8]
      exec (.wr16 sel v) s = .next { at_ sel with
        phase := .wrXfer, val := some v
        lo := some (v.extractLsb' 0 8), hi := some (v.extractLsb' 8 8), pec := some pec, tacc := some pec
        trace := s.trace ++ [.transportWrite (saw s.addr) (s.cfg.code sel)
          [v.extractLsb' 0 8, v.extractLsb' 8 8, pec] s.cfg.timeout] }) ∧
    (s.writes = [] →
      let pec := compute [saw s.addr, s.cfg.code .sleep]
      exec .slp s = .next { at_ .sleep with
        phase := .slpXfer, pec := some pec, tacc := some pec
        trace := s.trace ++ [.transportWrite (saw s.addr) (s.cfg.code .sleep) [pec] s.cfg.timeout] })

/-- No class check (42_transactions.md R166): `RD16`, `WR16` and `WREE` take every selector and make their call with
the code the encoder gives, whether or not software may use the selector so (70_reset_and_hazards.md R249). -/
def Obligations.SelectorClassIsNotChecked : Prop :=
  (∀ (s : State) (sel : Selector) (v : RegValue),
    let read : Event := .transportRead (saw s.addr) (s.cfg.code sel) 3 s.cfg.timeout
    let write : Event := .transportWrite (saw s.addr) (s.cfg.code sel)
      [v.extractLsb' 0 8, v.extractLsb' 8 8, compute [saw s.addr, s.cfg.code sel, v.extractLsb' 0 8, v.extractLsb' 8 8]]
      s.cfg.timeout
    (∃ t more, exec (.rd16 sel) s = .next t ∧ t.trace = s.trace ++ read :: more) ∧
    (∃ t more, exec (.wr16 sel v) s = .next t ∧ t.trace = s.trace ++ write :: more) ∧
    (∃ t more, exec (.wree sel v) s = .next t ∧ t.trace = s.trace ++ read :: more)) ∧
  (∀ v : RegValue, (Instr.rd16 .sleep).disciplined = false ∧ (Instr.wr16 .ta v).disciplined = false ∧
    (Instr.wree .flags v).disciplined = false)

/-! ## The persistent-register writer -/

/-- 43_persistent_writer.md R180: the six paths of `WREE`, each with every call it makes, in order, and its response.
A malformed word with its opcode is refused before any call. -/
def Obligations.PersistentWritePaths : Prop :=
  RefusesOtherWords 0xA 0xFFE00000#32 0xA0000000#32 ∧ RefusesReservedSelectors 0xA ∧
  ∀ (s : State) (sel : Selector) (v : RegValue) (reads : List ReadAnswer) (writes : List WriteAnswer) (delays : Nat),
    s.Ready →
    let cmd := s.cfg.code sel
    let read : Event := .transportRead (saw s.addr) cmd 3 s.cfg.timeout
    let write (x : RegValue) : Event := .transportWrite (saw s.addr) cmd
      [x.extractLsb' 0 8, x.extractLsb' 8 8, compute [saw s.addr, cmd, x.extractLsb' 0 8, x.extractLsb' 8 8]]
      s.cfg.timeout
    let done (ws : List WriteAnswer) (ds : Nat) (calls : List Event) (rsp : Word) : Result := .next { s with
      reads := reads
      writes := ws
      delays := ds
      pending := some rsp
      codes := s.codes ++ [cmd]
      trace := s.trace ++ calls ++ [.response rsp] }
    ((s.reads = .err :: reads ∨ ∃ bytes : List Byte, s.reads = .ok bytes :: reads ∧ bytes.length ≠ 3) →
      exec (.wree sel v) s = done s.writes s.delays [read] 0x00010000#32) ∧
    (∀ lo hi pec : Byte, s.reads = .ok [lo, hi, pec] :: reads →
      (compute [saw s.addr, cmd, sar s.addr, lo, hi] ≠ pec →
        exec (.wree sel v) s = done s.writes s.delays [read] 0x00020000#32) ∧
      (compute [saw s.addr, cmd, sar s.addr, lo, hi] = pec → valueOfBytes lo hi = v →
        exec (.wree sel v) s = done s.writes s.delays [read] 0x00000000#32) ∧
      (compute [saw s.addr, cmd, sar s.addr, lo, hi] = pec → valueOfBytes lo hi ≠ v →
        (s.writes = .err :: writes →
          exec (.wree sel v) s = done writes s.delays [read, write 0x0000#16] 0x00010000#32) ∧
        (s.writes = .ok :: .err :: writes → s.delays = delays + 1 →
          exec (.wree sel v) s = done writes delays [read, write 0x0000#16, .delay 10, write v] 0x00010000#32) ∧
        (s.writes = .ok :: .ok :: writes → s.delays = delays + 2 →
          exec (.wree sel v) s = done writes delays
            [read, write 0x0000#16, .delay 10, write v, .delay 10] 0x00000000#32)))

/-- 43_persistent_writer.md R181: whatever the environment answers, and however far the request has come, `WREE` has
written something only if its read passed the check and the 16-bit value read is not the target; when the device
already holds the target it makes exactly one `TransportRead` and nothing else; and a read that fails ends the request,
with an error response and no other call. -/
def Obligations.NothingIsWrittenUnlessTheReadDiffers : Prop :=
  ∀ (s t : State) (sel : Selector) (v : RegValue), s.Ready → exec (.wree sel v) s = .next t →
    ∃ new : List Event, t.trace = s.trace ++ new ∧
      ((∃ a r p n, Event.transportWrite a r p n ∈ new) →
        ∃ lo hi pec rest, s.reads = .ok [lo, hi, pec] :: rest ∧
          compute [saw s.addr, s.cfg.code sel, sar s.addr, lo, hi] = pec ∧ valueOfBytes lo hi ≠ v) ∧
      (∀ lo hi pec rest, s.reads = .ok [lo, hi, pec] :: rest →
        compute [saw s.addr, s.cfg.code sel, sar s.addr, lo, hi] = pec → valueOfBytes lo hi = v →
        new = [.transportRead (saw s.addr) (s.cfg.code sel) 3 s.cfg.timeout, .response 0x00000000#32]) ∧
      (∀ answer rest, s.reads = answer :: rest →
        (∀ lo hi pec, answer = .ok [lo, hi, pec] → compute [saw s.addr, s.cfg.code sel, sar s.addr, lo, hi] ≠ pec) →
        t.phase = .idle ∧ ∃ rsp, responseStatus rsp ≠ .ok ∧ t.pending = some rsp ∧
          new = [.transportRead (saw s.addr) (s.cfg.code sel) 3 s.cfg.timeout, .response rsp])

/-! ## All requests together -/

/-- Every instruction of the table runs, in every state: none ends in a fault or a refusal. That the rows of the
command-code table run by themselves (log entry 3) and that `exec` answers outside `IDLE` too (log entry 15) are the
model's choices: the hardware accepts a request in `IDLE` alone. -/
def Obligations.EveryInstructionRuns : Prop :=
  ∀ (i : Instr) (s : State), ∃ t, exec i s = .next t

/-- It makes no difference when the environment's answers come: a request that waits, is then given more answers and
goes on, ends as if it had found them there, and answers beyond its need stay where they are (00_scope.md R12, 10_state.md
R24; 92_eei_decisions.md D19). -/
def Obligations.AnswersMayComeLater : Prop :=
  ∀ (i : Instr) (s t : State) (reads : List ReadAnswer) (writes : List WriteAnswer) (delays : Nat),
    let more (x : State) : State :=
      { x with reads := x.reads ++ reads, writes := x.writes ++ writes, delays := x.delays + delays }
    s.resetLine = false → exec i s = .next t →
    (t.phase = .idle ∨ i.isRequest = true) →
    exec i (more s) = if t.phase = .idle then .next (more t) else step (more t)

/-- A request makes at most three transport calls and two delays, and emits at most one response (43_persistent_writer.md
R185, marked derived there; 30_encoding.md R82). -/
def Obligations.CallsOfARequestAreBounded : Prop :=
  ∀ (i : Instr) (s t : State), exec i s = .next t →
    ∃ new : List Event, t.trace = s.trace ++ new ∧ new.countP Event.isTransport ≤ 3 ∧
      new.countP Event.isDelay ≤ 2 ∧ new.countP Event.isResponse ≤ 1

/-- A request emits exactly one response, at its very end, and no response while it waits (30_encoding.md R82, 10_state.md
R24); at its end no latch keeps a value (R26). That an earlier response is no longer pending while a request waits is the
model's choice (log entry 12). -/
def Obligations.OneResponseEndsEachRequest : Prop :=
  ∀ (i : Instr) (s t : State), i.isRequest = true → exec i s = .next t →
    (t.phase = .idle → t.latchesEmpty ∧ ∃ (calls : List Event) (rsp : Word),
      t.trace = s.trace ++ calls ++ [.response rsp] ∧ t.pending = some rsp ∧
      ∀ e ∈ calls, e.isResponse = false) ∧
    (t.phase ≠ .idle → t.pending = none ∧ ∃ calls : List Event,
      t.trace = s.trace ++ calls ∧ calls ≠ [] ∧ ∀ e ∈ calls, e.isResponse = false)

/-- What an error leaves (60_exceptions.md R214): a request that ends with a status other than OK has a response whose
value field is 0x0000, directly after the call that failed; `PHASE` is `IDLE`, every latch has lost its value, and `ADDR`,
`ACC` and everything else but the answers taken, the calls made and the encoder's output are as before it. The call
that failed is a read answered `Err` or with other than three bytes, a write answered `Err`, or, for `ChecksumError`,
a read, the only call made, whose check failed (R211, R212). -/
def Obligations.ErrorsLeaveTheRegisters : Prop :=
  ∀ (i : Instr) (s t : State) (rsp : Word), s.Ready → i.isRequest = true → exec i s = .next t → t.phase = .idle →
    t.pending = some rsp → responseStatus rsp ≠ .ok →
    rsp = responseWord (responseStatus rsp) 0x0000#16 ∧
    ∃ (reads : List ReadAnswer) (writes : List WriteAnswer) (delays : Nat) (calls : List Event) (codes : List Byte),
      (∀ e ∈ calls, e.isResponse = false) ∧
      t = { s with
        reads := reads, writes := writes, delays := delays, codes := codes, pending := some rsp
        trace := s.trace ++ calls ++ [.response rsp] } ∧
      match responseStatus rsp with
      | .transportError =>
        (∃ a r n time answer, calls.getLast? = some (.transportRead a r n time) ∧ s.reads = answer :: reads ∧
          (answer = .err ∨ ∃ bytes : List Byte, answer = .ok bytes ∧ bytes.length ≠ 3)) ∨
        (∃ a r payload time taken, calls.getLast? = some (.transportWrite a r payload time) ∧
          s.writes = taken ++ .err :: writes)
      | .checksumError =>
        ∃ a r n time lo hi pec, calls = [.transportRead a r n time] ∧ s.reads = .ok [lo, hi, pec] :: reads ∧
          compute [a, r, sar s.addr, lo, hi] ≠ pec
      | .ok | .invalidRequest => False

/-- 60_exceptions.md R216: a well-formed request ends only in the ways its row of the table allows, and each way it allows
does happen; a reserved opcode always ends in `InvalidRequest`. -/
def Obligations.EndingsOfEachRequest : Prop :=
  (∀ (i : Instr) (s : State) (st : Status), i.isRequest = true → EndsWith i s st → st ∈ i.endings) ∧
  (∀ (i : Instr) (st : Status), i.isRequest = true → st ∈ i.endings → ∃ s : State, s.Ready ∧ EndsWith i s st) ∧
  (∀ (s : State) (w : Word) (rest : List Offer), s.phase = .idle → s.resetLine = false → s.inbox = .req32 w :: rest →
    (∃ m, decodeRequest w = .error m) →
    ∃ t rsp, step s = .next t ∧ t.phase = .idle ∧ t.pending = some rsp ∧ responseStatus rsp = .invalidRequest) ∧
  (∀ w : Word, (w.extractLsb' 28 4).toNat ∈ [0x0, 0x5, 0x6, 0x7, 0xC, 0xD, 0xE, 0xF] →
    ∃ m, decodeRequest w = .error m)

/-- Every call of every step carries `SAW`, the count 3 or a payload of 3 bytes or 1, the code of one of the selectors,
and `TIMEOUT`, by default 100; a delay is `Delay(SETTLE)` (20_memory.md R52, R53, R54, R67). -/
def Obligations.CallsCarryTheFixedOperands : Prop :=
  Config.default.timeout = 100 ∧
  ∀ s t : State, s.Sound → step s = .next t →
    ∃ new : List Event, t.trace = s.trace ++ new ∧ ∀ e ∈ new,
      match e with
      | .transportRead a r n time =>
        a = saw s.addr ∧ n = 3 ∧ time = s.cfg.timeout ∧ ∃ sel : Selector, r = s.cfg.code sel
      | .transportWrite a r payload time =>
        a = saw s.addr ∧ time = s.cfg.timeout ∧ (payload.length = 3 ∨ payload.length = 1) ∧
          ∃ sel : Selector, r = s.cfg.code sel
      | .delay n => n = 10
      | .response _ => True

/-- The same request, from the same `ADDR` and parameters and with the same answers, makes the same calls and gives the
same response, whatever else the states hold; `CK.UPD` and `CK.GET` depend on `ACC` too (42_transactions.md R167, marked
derived there). -/
def Obligations.RequestsDependOnlyOnAddressAndAnswers : Prop :=
  ∀ (i : Instr) (s₁ s₂ t₁ : State), i.isRequest = true →
    s₁.cfg = s₂.cfg → s₁.addr = s₂.addr → s₁.reads = s₂.reads → s₁.writes = s₂.writes → s₁.delays = s₂.delays →
    ((i = .ckGet ∨ ∃ b, i = .ckUpd b) → s₁.acc = s₂.acc) →
    exec i s₁ = .next t₁ →
    ∃ (t₂ : State) (new : List Event), exec i s₂ = .next t₂ ∧ t₂.phase = t₁.phase ∧ t₂.pending = t₁.pending ∧
      t₁.trace = s₁.trace ++ new ∧ t₂.trace = s₂.trace ++ new

/-! ## The legal states -/

/-- The machine right after reset is in a legal state, whatever its parameters. -/
def Obligations.ResetStateIsSound : Prop :=
  ∀ cfg : Config, (State.resetWith cfg).Sound ∧ State.reset.Sound

/-- Every step keeps the states legal: in `IDLE` no latch holds a value, and in every other phase the latches hold what
the pseudocode has put there and the call last made is the one the block waits on (10_state.md R24, R26). The model's
choices in it: the phases inside `WREE` (log entry 5), `SEL` at 17 in `SLP` and how long `TACC` and the other latches keep their
values (log entry 6), and that no response is pending while a request waits (log entry 12). -/
def Obligations.StepKeepsStatesSound : Prop :=
  ∀ s t : State, s.Sound → step s = .next t → t.Sound

/-- From a legal state the machine never faults; it has no meaning only for a reset in mid-request (70_reset_and_hazards.md
R241, log entry 11) and for an offered byte that is no command code (the model's choice, log entry 3). The fault that is
excluded is the model's too (log entry 14). -/
def Obligations.SoundStatesNeverFault : Prop :=
  ∀ s : State, s.Sound →
    (∃ t, step s = .next t) ∨
    (step s = .refused .resetInProgress ∧ s.resetLine = true ∧ s.phase ≠ .idle) ∨
    (step s = .refused .noCommandCode ∧ s.phase = .idle ∧
      ∃ b rest, s.inbox = .cmd8 b :: rest ∧ ∀ sel : Selector, s.cfg.code sel ≠ b)

/-! ## The host layer -/

/-- 44_host_layer.md R194: `raw_to_celsius(raw)` is exactly `raw * 0.02 - 273.15`. -/
def Obligations.RawToCelsiusIsExact : Prop :=
  ∀ raw : RegValue, (rawToCelsius raw).toRat = (raw.toNat : Rat) * (2 / 100) - 27315 / 100

/-- 44_host_layer.md R195: in [0, 1] `emissivity_to_raw(f)` is the integer nearest `f * 65535`, a half going up (the
spec's decision D16), and it fits 16 bits; 1.0 gives 65535, 0.0 gives 0 and 0.5 gives 0x8000. -/
def Obligations.EmissivityRoundsToNearest : Prop :=
  (∀ f : Ratio, f.inUnit = true →
    -(1 / 2 : Rat) < ((emissivityToRaw f).toNat : Rat) - f.toRat * 65535 ∧
    ((emissivityToRaw f).toNat : Rat) - f.toRat * 65535 ≤ 1 / 2) ∧
  emissivityToRaw ⟨1, 1⟩ = 65535#16 ∧ emissivityToRaw ⟨0, 1⟩ = 0#16 ∧ emissivityToRaw ⟨1, 2⟩ = 0x8000#16

/-- Converting a temperature to a count and back moves it by at most one hundredth of a degree, half a count, wherever the
count fits 16 bits (44_host_layer.md R196; the rounding is 92_eei_decisions.md D17). -/
def Obligations.CelsiusRoundTripIsWithinOneCount : Prop :=
  ∀ t : Ratio, 0 < t.den → 0 ≤ celsiusToRaw t → celsiusToRaw t < 65536 →
    |(rawToCelsius (BitVec.ofInt 16 (celsiusToRaw t))).toRat - t.toRat| ≤ 1 / 100

/-- 44_host_layer.md R190: an emissivity outside [0, 1], or no number, fails with `InvalidArgument` and nothing is sent;
in range, `WREE EMISS` is sent with the rounded value and the result is the response's status. -/
def Obligations.EmissivityIsCheckedBeforeSending : Prop :=
  (∀ (f : Ratio) (s : State), (f.den = 0 ∨ f.toRat < 0 ∨ 1 < f.toRat) →
    configureEmissivity f s = some (s, .error .invalidArgument)) ∧
  (∀ (f : Ratio) (s t : State) (rsp : Word), f.den ≠ 0 → 0 ≤ f.toRat → f.toRat ≤ 1 →
    send (.wree .emiss (emissivityToRaw f)) s = some (t, rsp) →
    configureEmissivity f s = some (t, (responseStatus rsp).toHost))

/-- 44_host_layer.md R191, R192: a temperature is read with `RD16 TA` or `RD16 TOBJ1`; a good read gives
`raw_to_celsius` of its value, a failed one gives the error and no temperature. -/
def Obligations.FailedReadsGiveNoTemperature : Prop :=
  ∀ (s : State) (answer : ReadAnswer) (rest : List ReadAnswer),
    s.Ready → s.resetLine = false → s.reads = answer :: rest →
    let outcome (sel : Selector) : Except HostError Ratio :=
      match answer with
      | .ok [lo, hi, pec] =>
        if compute [saw s.addr, s.cfg.code sel, sar s.addr, lo, hi] = pec then .ok (rawToCelsius (valueOfBytes lo hi))
        else .error .checksumError
      | .ok _ => .error .transportError
      | .err => .error .transportError
    (readAmbientTemperature s).map (·.2) = some (outcome .ta) ∧
    (readObjectTemperature s).map (·.2) = some (outcome .tobj1)

/-! ## The block against the device model of 92_eei_decisions.md D29 -/

/-- Scenarios S7 and S5 of 95_test_vectors.md for every register and value: against a `MockDevice` that is awake, `WREE`
leaves the target in the register and every other register alone; sent again, it makes exactly one read and changes
nothing. The device is log entry 7's, no rule of the block, and the numbers of steps rest on log entry 1. -/
def Obligations.PersistentWriteReachesTheDevice : Prop :=
  ∀ (s : State) (d : Device) (sel : Selector) (v : RegValue),
    s.Ready → s.resetLine = false → s.reads = [] → s.writes = [] → s.delays = 0 → d.asleep = false →
    d.regs.wf = true →
    let request (x : State) : State := { x with inbox := [encode x.cfg (.wree sel v)] }
    ∃ sys : System, System.run 6 ⟨request s, d⟩ = some sys ∧
      sys.block.Ready ∧ sys.block.pending = some 0x00000000#32 ∧ sys.device.asleep = false ∧
      sys.device.regs.wf = true ∧ sys.device.regs.read (s.cfg.code sel).toNat = v ∧
      (∀ k, k ≠ (s.cfg.code sel).toNat → sys.device.regs.read k = d.regs.read k) ∧
      System.run 2 { sys with block := request sys.block } = some { sys with block := { sys.block with
        codes := sys.block.codes ++ [s.cfg.code sel]
        trace := sys.block.trace ++
          [.transportRead (saw s.addr) (s.cfg.code sel) 3 s.cfg.timeout, .response 0x00000000#32] } }

/-- Scenario S9 of 95_test_vectors.md: against a `MockDevice`, `SLP` is answered OK and the device is asleep; and against a
device that is asleep every read, write and sleep command of a ready block makes its one call, ends in
`TransportError` and leaves both ready for the next, the block keeping nothing else of it (42_transactions.md R169). So
every transaction after `SLP` fails, however many there are. The device is log entry 7's, no rule of the block, and the
numbers of steps rest on log entry 1. -/
def Obligations.AfterSleepEveryTransactionFails : Prop :=
  ∀ (s : State) (d : Device),
    s.Ready → s.resetLine = false → s.reads = [] → s.writes = [] → s.delays = 0 →
    let run (i : Instr) : Option System := System.run 2 ⟨{ s with inbox := [encode s.cfg i] }, d⟩
    let ended (sel : Selector) (call : Event) (rsp : Word) : State := { s with
      inbox := []
      pending := some rsp
      codes := s.codes ++ [s.cfg.code sel]
      trace := s.trace ++ [call, .response rsp] }
    let read (sel : Selector) : Event := .transportRead (saw s.addr) (s.cfg.code sel) 3 s.cfg.timeout
    let write (sel : Selector) (v : RegValue) : Event := .transportWrite (saw s.addr) (s.cfg.code sel)
      [v.extractLsb' 0 8, v.extractLsb' 8 8, compute [saw s.addr, s.cfg.code sel, v.extractLsb' 0 8, v.extractLsb' 8 8]]
      s.cfg.timeout
    let sleep : Event := .transportWrite (saw s.addr) (s.cfg.code .sleep)
      [compute [saw s.addr, s.cfg.code .sleep]] s.cfg.timeout
    (d.asleep = false → run .slp = some ⟨ended .sleep sleep 0x00000000#32, { d with asleep := true }⟩) ∧
    (d.asleep = true →
      (∀ sel : Selector, run (.rd16 sel) = some ⟨ended sel (read sel) 0x00010000#32, d⟩) ∧
      (∀ (sel : Selector) (v : RegValue), run (.wr16 sel v) = some ⟨ended sel (write sel v) 0x00010000#32, d⟩) ∧
      (∀ (sel : Selector) (v : RegValue), run (.wree sel v) = some ⟨ended sel (read sel) 0x00010000#32, d⟩) ∧
      run .slp = some ⟨ended .sleep sleep 0x00010000#32, d⟩)
end

