-- ==== Sys2Proof/Laws/PerInstr.lean ====
section
/-! SUPPORT. Statements for all instructions, one lemma per constructor. `TableMatch`: the word an instruction is
written as matches its row of spec/opcode_table.json, `(w AND mask) == match` (30_encoding.md R84, R100). -/

namespace Sys2Proof.Laws.TableMatch

/-- The word of an instruction agrees with its row's match under its row's mask, whatever its operands. -/
def Statement (i : Instr) : Prop :=
  ∀ cfg : Config,
    match encode cfg i with
    | .req32 w => w &&& BitVec.ofNat 32 (i.tableRow cfg).2 = BitVec.ofNat 32 (i.tableRow cfg).1
    | .cmd8 b => b &&& BitVec.ofNat 8 (i.tableRow cfg).2 = BitVec.ofNat 8 (i.tableRow cfg).1

/-- A mask that covers the opcode and the must-be-zero field leaves just the opcode. -/
theorem opcode_under_mask (op : BitVec 4) (sel : BitVec 5) (imm : BitVec 16) :
    Fields.toWord ⟨op, 0, sel, imm⟩ &&& 0xFFE00000#32 = op ++ 0#7 ++ 0#5 ++ 0#16 := by
  have mask : (0xFFE00000#32 : BitVec (4 + 7 + 5 + 16)) = 0xF#4 ++ 0x7F#7 ++ 0x00#5 ++ 0x0000#16 := by decide
  have full : op &&& 0xF#4 = op := by revert op; decide
  have fields : (op ++ 0#7 ++ sel ++ imm) &&& (0xF#4 ++ 0x7F#7 ++ 0x00#5 ++ 0x0000#16) =
      op ++ 0#7 ++ 0#5 ++ 0#16 := by
    rw [BitVec.and_append, BitVec.and_append, BitVec.and_append, full]
    simp
  rw [show (0xFFE00000#32 : Word) = 0xF#4 ++ 0x7F#7 ++ 0x00#5 ++ 0x0000#16 from mask]
  exact fields

/-- A whole byte agrees with itself under the full mask. -/
theorem byte_under_mask (b : Byte) : b &&& BitVec.ofNat 8 0xFF = BitVec.ofNat 8 b.toNat := by
  revert b; decide

theorem ckClr : Statement .ckClr := fun _ => by
  show Fields.toWord ⟨0x1, 0, 0, 0⟩ &&& 0xFFFFFFFF#32 = 0x10000000#32
  decide

theorem ckUpd (b : Byte) : Statement (.ckUpd b) := fun _ => by
  show Fields.toWord ⟨0x2, 0, 0, b.zeroExtend 16⟩ &&& 0xFFFFFF00#32 = 0x20000000#32
  revert b; decide +kernel

theorem ckGet : Statement .ckGet := fun _ => by
  show Fields.toWord ⟨0x3, 0, 0, 0⟩ &&& 0xFFFFFFFF#32 = 0x30000000#32
  decide

theorem cfgAddr (a7 : BusAddr) : Statement (.cfgAddr a7) := fun _ => by
  show Fields.toWord ⟨0x4, 0, 0, a7.zeroExtend 16⟩ &&& 0xFFFFFF80#32 = 0x40000000#32
  revert a7; decide +kernel

theorem rd16 (sel : Selector) : Statement (.rd16 sel) := fun _ => by
  show Fields.toWord ⟨0x8, 0, sel.number, 0⟩ &&& 0xFFE0FFFF#32 = 0x80000000#32
  cases sel <;> decide

theorem wr16 (sel : Selector) (v : RegValue) : Statement (.wr16 sel v) := fun _ =>
  (opcode_under_mask 0x9 sel.number v).trans
    (by show 0x9#4 ++ 0#7 ++ 0#5 ++ 0#16 = 0x90000000#32; decide)

theorem wree (sel : Selector) (v : RegValue) : Statement (.wree sel v) := fun _ =>
  (opcode_under_mask 0xA sel.number v).trans
    (by show 0xA#4 ++ 0#7 ++ 0#5 ++ 0#16 = 0xA0000000#32; decide)

theorem slp : Statement .slp := fun _ => by
  show Fields.toWord ⟨0xB, 0, 0, 0⟩ &&& 0xFFFFFFFF#32 = 0xB0000000#32
  decide

theorem cmdRawir1 : Statement .cmdRawir1 := fun cfg => byte_under_mask (cfg.code .rawir1)

theorem cmdRawir2 : Statement .cmdRawir2 := fun cfg => byte_under_mask (cfg.code .rawir2)

theorem cmdTa : Statement .cmdTa := fun cfg => byte_under_mask (cfg.code .ta)

theorem cmdTobj1 : Statement .cmdTobj1 := fun cfg => byte_under_mask (cfg.code .tobj1)

theorem cmdTobj2 : Statement .cmdTobj2 := fun cfg => byte_under_mask (cfg.code .tobj2)

theorem cmdTomax : Statement .cmdTomax := fun cfg => byte_under_mask (cfg.code .tomax)

theorem cmdTomin : Statement .cmdTomin := fun cfg => byte_under_mask (cfg.code .tomin)

theorem cmdPwmctrl : Statement .cmdPwmctrl := fun cfg => byte_under_mask (cfg.code .pwmctrl)

theorem cmdTarange : Statement .cmdTarange := fun cfg => byte_under_mask (cfg.code .tarange)

theorem cmdEmiss : Statement .cmdEmiss := fun cfg => byte_under_mask (cfg.code .emiss)

theorem cmdConfig1 : Statement .cmdConfig1 := fun cfg => byte_under_mask (cfg.code .config1)

theorem cmdSmbaddr : Statement .cmdSmbaddr := fun cfg => byte_under_mask (cfg.code .smbaddr)

theorem cmdId1 : Statement .cmdId1 := fun cfg => byte_under_mask (cfg.code .id1)

theorem cmdId2 : Statement .cmdId2 := fun cfg => byte_under_mask (cfg.code .id2)

theorem cmdId3 : Statement .cmdId3 := fun cfg => byte_under_mask (cfg.code .id3)

theorem cmdId4 : Statement .cmdId4 := fun cfg => byte_under_mask (cfg.code .id4)

theorem cmdFlags : Statement .cmdFlags := fun cfg => byte_under_mask (cfg.code .flags)

theorem cmdSleep : Statement .cmdSleep := fun cfg => byte_under_mask (cfg.code .sleep)

end Sys2Proof.Laws.TableMatch
end

