-- ==== Sys2Proof/Laws/RegSpace.lean ====
section
/-! SUPPORT. The register space of the device model: a write keeps the canonical form, a read after a write to the same
code gives the value written, and a write leaves every other code alone. -/

namespace Sys2Proof.Machine

/-- Every code of a space lies above a bound. -/
def RegSpace.above (k : Nat) (m : RegSpace) : Prop :=
  ∀ e ∈ m, k < e.1

/-- The canonical form of a space with a first entry. -/
theorem RegSpace.wf_cons {e : Nat × RegValue} {m : RegSpace} :
    RegSpace.wf (e :: m) = true ↔ RegSpace.above e.1 m ∧ e.2 ≠ RegSpace.unlisted ∧ RegSpace.wf m = true := by
  simp only [RegSpace.wf, RegSpace.above, List.pairwise_cons, List.all_cons, Bool.and_eq_true, decide_eq_true_eq,
    bne_iff_ne]
  tauto

/-- A code below every entry is unlisted. -/
theorem RegSpace.read_above {k : Nat} {m : RegSpace} (h : RegSpace.above k m) :
    RegSpace.read m k = RegSpace.unlisted := by
  induction m with
  | nil => rfl
  | cons e m ih =>
    have he : k < e.1 := h e (by simp)
    simp only [RegSpace.read, if_neg (Nat.ne_of_gt he)]
    exact ih fun x hx => h x (by simp [hx])

/-- What `put` lists in front of a space. -/
theorem RegSpace.read_put {k : Nat} {v : RegValue} {m : RegSpace} (h : RegSpace.above k m) (j : Nat) :
    RegSpace.read (RegSpace.put k v m) j = if j = k then v else RegSpace.read m j := by
  by_cases hv : v = RegSpace.unlisted
  · by_cases hj : j = k
    · subst hj; simp [RegSpace.put, hv, RegSpace.read_above h]
    · simp [RegSpace.put, hv, hj]
  · by_cases hj : j = k
    · simp [RegSpace.put, hv, RegSpace.read, hj]
    · simp [RegSpace.put, hv, RegSpace.read, hj, Ne.symm hj]

/-- `put` keeps the canonical form. -/
theorem RegSpace.put_wf {k : Nat} {v : RegValue} {m : RegSpace} (h : RegSpace.above k m)
    (hm : RegSpace.wf m = true) : RegSpace.wf (RegSpace.put k v m) = true := by
  by_cases hv : v = RegSpace.unlisted
  · simpa [RegSpace.put, hv] using hm
  · rw [RegSpace.put, if_neg hv, RegSpace.wf_cons]
    exact ⟨h, hv, hm⟩

/-- A bound on a space that a write keeps. -/
theorem RegSpace.write_above {j k : Nat} {v : RegValue} {m : RegSpace} (h : RegSpace.above j m) (hk : j < k) :
    RegSpace.above j (RegSpace.write m k v) := by
  have put {n : RegSpace} (hn : RegSpace.above j n) : RegSpace.above j (RegSpace.put k v n) := by
    unfold RegSpace.put
    split
    · exact hn
    · intro e he
      rcases List.mem_cons.mp he with rfl | he
      · exact hk
      · exact hn e he
  induction m with
  | nil => exact put h
  | cons e m ih =>
    have hm : RegSpace.above j m := fun x hx => h x (by simp [hx])
    unfold RegSpace.write
    split
    · exact put h
    · split
      · exact put hm
      · intro x hx
        rcases List.mem_cons.mp hx with rfl | hx
        · exact h _ (by simp)
        · exact ih hm x hx

/-- A write keeps the canonical form. -/
theorem RegSpace.write_wf {m : RegSpace} (hm : RegSpace.wf m = true) (k : Nat) (v : RegValue) :
    RegSpace.wf (RegSpace.write m k v) = true := by
  induction m with
  | nil => exact RegSpace.put_wf (fun _ h => absurd h (by simp)) rfl
  | cons e m ih =>
    obtain ⟨ha, hv, hw⟩ := RegSpace.wf_cons.mp hm
    unfold RegSpace.write
    split
    · next hk =>
      refine RegSpace.put_wf (fun x hx => ?_) hm
      rcases List.mem_cons.mp hx with rfl | hx
      · exact hk
      · exact hk.trans (ha x hx)
    · split
      · next hk => exact RegSpace.put_wf (hk ▸ ha) hw
      · next h1 h2 => exact RegSpace.wf_cons.mpr ⟨RegSpace.write_above ha (by omega), hv, ih hw⟩

/-- What a code holds after a write. -/
theorem RegSpace.read_write {m : RegSpace} (hm : RegSpace.wf m = true) (k : Nat) (v : RegValue) (j : Nat) :
    RegSpace.read (RegSpace.write m k v) j = if j = k then v else RegSpace.read m j := by
  induction m with
  | nil => exact RegSpace.read_put (fun _ h => absurd h (by simp)) j
  | cons e m ih =>
    obtain ⟨ha, hv, hw⟩ := RegSpace.wf_cons.mp hm
    unfold RegSpace.write
    split
    · next hk =>
      refine RegSpace.read_put (fun x hx => ?_) j
      rcases List.mem_cons.mp hx with rfl | hx
      · exact hk
      · exact hk.trans (ha x hx)
    · split
      · next hk =>
        rw [RegSpace.read_put (hk ▸ ha) j]
        by_cases hj : j = k
        · simp [hj]
        · simp [hj, RegSpace.read, ← hk, Ne.symm hj]
      · next h1 h2 =>
        simp only [RegSpace.read, ih hw]
        by_cases he : e.1 = j
        · simp [he, show j ≠ k by omega]
        · simp [he]

end Sys2Proof.Machine
end

