-- ==== Sys2Proof/Laws/Response.lean ====
section
/-! SUPPORT. The fields of a response word (30_encoding.md R82). -/

namespace Sys2Proof.Machine

/-- The status field of a response word is the status it was built from. -/
@[simp] theorem responseStatus_responseWord (st : Status) (v : RegValue) :
    responseStatus (responseWord st v) = st := by
  have field : (responseWord st v).extractLsb' 16 2 = st.code := by
    apply BitVec.eq_of_getLsbD_eq
    intro i hi
    simp only [responseWord, BitVec.getLsbD_extractLsb', hi, decide_true, Bool.true_and]
    rw [BitVec.getLsbD_append (n := 14 + 2), BitVec.getLsbD_append, if_neg (by omega), if_pos (by omega)]
    congr 1
    omega
  rw [responseStatus, field]
  cases st <;> decide

/-- The value field of a response word is the value it was built from. -/
@[simp] theorem responseValue_responseWord (st : Status) (v : RegValue) :
    responseValue (responseWord st v) = v := by
  apply BitVec.eq_of_getLsbD_eq
  intro i hi
  simp only [responseValue, responseWord, BitVec.getLsbD_extractLsb', hi, decide_true, Bool.true_and]
  rw [BitVec.getLsbD_append (n := 14 + 2), if_pos (by omega), Nat.zero_add]

/-- A response word with status OK is its value. -/
theorem responseWord_ok (v : RegValue) : responseWord .ok v = 0x0000#16 ++ v := rfl

/-- The response words of the three error kinds, whose value is 0x0000 (30_encoding.md R102). -/
theorem responseWord_errors :
    responseWord .transportError 0x0000#16 = 0x00010000#32 ∧
    responseWord .checksumError 0x0000#16 = 0x00020000#32 ∧
    responseWord .invalidRequest 0x0000#16 = 0x00030000#32 := by
  decide

end Sys2Proof.Machine
end

