-- ==== Sys2Proof/Laws/State.lean ====
section
/-! SUPPORT. One lemma per field of the state per named update of it: what the update writes there, or that it leaves
the field alone. -/

namespace Sys2Proof.Machine

@[simp] theorem State.clearLatches_cfg (s : State) : s.clearLatches.cfg = s.cfg := rfl
@[simp] theorem State.clearLatches_addr (s : State) : s.clearLatches.addr = s.addr := rfl
@[simp] theorem State.clearLatches_acc (s : State) : s.clearLatches.acc = s.acc := rfl
@[simp] theorem State.clearLatches_phase (s : State) : s.clearLatches.phase = s.phase := rfl
@[simp] theorem State.clearLatches_sel (s : State) : s.clearLatches.sel = none := rfl
@[simp] theorem State.clearLatches_cmd (s : State) : s.clearLatches.cmd = none := rfl
@[simp] theorem State.clearLatches_val (s : State) : s.clearLatches.val = none := rfl
@[simp] theorem State.clearLatches_lo (s : State) : s.clearLatches.lo = none := rfl
@[simp] theorem State.clearLatches_hi (s : State) : s.clearLatches.hi = none := rfl
@[simp] theorem State.clearLatches_pec (s : State) : s.clearLatches.pec = none := rfl
@[simp] theorem State.clearLatches_cur (s : State) : s.clearLatches.cur = none := rfl
@[simp] theorem State.clearLatches_tacc (s : State) : s.clearLatches.tacc = none := rfl
@[simp] theorem State.clearLatches_pending (s : State) : s.clearLatches.pending = s.pending := rfl
@[simp] theorem State.clearLatches_resetLine (s : State) : s.clearLatches.resetLine = s.resetLine := rfl
@[simp] theorem State.clearLatches_inbox (s : State) : s.clearLatches.inbox = s.inbox := rfl
@[simp] theorem State.clearLatches_reads (s : State) : s.clearLatches.reads = s.reads := rfl
@[simp] theorem State.clearLatches_writes (s : State) : s.clearLatches.writes = s.writes := rfl
@[simp] theorem State.clearLatches_delays (s : State) : s.clearLatches.delays = s.delays := rfl
@[simp] theorem State.clearLatches_trace (s : State) : s.clearLatches.trace = s.trace := rfl
@[simp] theorem State.clearLatches_codes (s : State) : s.clearLatches.codes = s.codes := rfl

@[simp] theorem State.abandon_cfg (s : State) : s.abandon.cfg = s.cfg := rfl
@[simp] theorem State.abandon_addr (s : State) : s.abandon.addr = s.addr := rfl
@[simp] theorem State.abandon_acc (s : State) : s.abandon.acc = s.acc := rfl
@[simp] theorem State.abandon_phase (s : State) : s.abandon.phase = .idle := rfl
@[simp] theorem State.abandon_sel (s : State) : s.abandon.sel = none := rfl
@[simp] theorem State.abandon_cmd (s : State) : s.abandon.cmd = none := rfl
@[simp] theorem State.abandon_val (s : State) : s.abandon.val = none := rfl
@[simp] theorem State.abandon_lo (s : State) : s.abandon.lo = none := rfl
@[simp] theorem State.abandon_hi (s : State) : s.abandon.hi = none := rfl
@[simp] theorem State.abandon_pec (s : State) : s.abandon.pec = none := rfl
@[simp] theorem State.abandon_cur (s : State) : s.abandon.cur = none := rfl
@[simp] theorem State.abandon_tacc (s : State) : s.abandon.tacc = none := rfl
@[simp] theorem State.abandon_pending (s : State) : s.abandon.pending = s.pending := rfl
@[simp] theorem State.abandon_resetLine (s : State) : s.abandon.resetLine = s.resetLine := rfl
@[simp] theorem State.abandon_inbox (s : State) : s.abandon.inbox = s.inbox := rfl
@[simp] theorem State.abandon_reads (s : State) : s.abandon.reads = s.reads := rfl
@[simp] theorem State.abandon_writes (s : State) : s.abandon.writes = s.writes := rfl
@[simp] theorem State.abandon_delays (s : State) : s.abandon.delays = s.delays := rfl
@[simp] theorem State.abandon_trace (s : State) : s.abandon.trace = s.trace := rfl
@[simp] theorem State.abandon_codes (s : State) : s.abandon.codes = s.codes := rfl

@[simp] theorem State.finish_cfg (s : State) (st : Status) (v : RegValue) : (s.finish st v).cfg = s.cfg := rfl
@[simp] theorem State.finish_addr (s : State) (st : Status) (v : RegValue) : (s.finish st v).addr = s.addr := rfl
@[simp] theorem State.finish_acc (s : State) (st : Status) (v : RegValue) : (s.finish st v).acc = s.acc := rfl
@[simp] theorem State.finish_phase (s : State) (st : Status) (v : RegValue) : (s.finish st v).phase = .idle := rfl
@[simp] theorem State.finish_sel (s : State) (st : Status) (v : RegValue) : (s.finish st v).sel = none := rfl
@[simp] theorem State.finish_cmd (s : State) (st : Status) (v : RegValue) : (s.finish st v).cmd = none := rfl
@[simp] theorem State.finish_val (s : State) (st : Status) (v : RegValue) : (s.finish st v).val = none := rfl
@[simp] theorem State.finish_lo (s : State) (st : Status) (v : RegValue) : (s.finish st v).lo = none := rfl
@[simp] theorem State.finish_hi (s : State) (st : Status) (v : RegValue) : (s.finish st v).hi = none := rfl
@[simp] theorem State.finish_pec (s : State) (st : Status) (v : RegValue) : (s.finish st v).pec = none := rfl
@[simp] theorem State.finish_cur (s : State) (st : Status) (v : RegValue) : (s.finish st v).cur = none := rfl
@[simp] theorem State.finish_tacc (s : State) (st : Status) (v : RegValue) : (s.finish st v).tacc = none := rfl
@[simp] theorem State.finish_pending (s : State) (st : Status) (v : RegValue) :
    (s.finish st v).pending = some (responseWord st v) := rfl
@[simp] theorem State.finish_resetLine (s : State) (st : Status) (v : RegValue) :
    (s.finish st v).resetLine = s.resetLine := rfl
@[simp] theorem State.finish_inbox (s : State) (st : Status) (v : RegValue) : (s.finish st v).inbox = s.inbox := rfl
@[simp] theorem State.finish_reads (s : State) (st : Status) (v : RegValue) : (s.finish st v).reads = s.reads := rfl
@[simp] theorem State.finish_writes (s : State) (st : Status) (v : RegValue) :
    (s.finish st v).writes = s.writes := rfl
@[simp] theorem State.finish_delays (s : State) (st : Status) (v : RegValue) :
    (s.finish st v).delays = s.delays := rfl
@[simp] theorem State.finish_trace (s : State) (st : Status) (v : RegValue) :
    (s.finish st v).trace = s.trace ++ [.response (responseWord st v)] := rfl
@[simp] theorem State.finish_codes (s : State) (st : Status) (v : RegValue) : (s.finish st v).codes = s.codes := rfl

@[simp] theorem State.respond_cfg (s : State) (v : RegValue) : (s.respond v).cfg = s.cfg := rfl
@[simp] theorem State.respond_addr (s : State) (v : RegValue) : (s.respond v).addr = s.addr := rfl
@[simp] theorem State.respond_acc (s : State) (v : RegValue) : (s.respond v).acc = s.acc := rfl
@[simp] theorem State.respond_phase (s : State) (v : RegValue) : (s.respond v).phase = .idle := rfl
@[simp] theorem State.respond_sel (s : State) (v : RegValue) : (s.respond v).sel = none := rfl
@[simp] theorem State.respond_cmd (s : State) (v : RegValue) : (s.respond v).cmd = none := rfl
@[simp] theorem State.respond_val (s : State) (v : RegValue) : (s.respond v).val = none := rfl
@[simp] theorem State.respond_lo (s : State) (v : RegValue) : (s.respond v).lo = none := rfl
@[simp] theorem State.respond_hi (s : State) (v : RegValue) : (s.respond v).hi = none := rfl
@[simp] theorem State.respond_pec (s : State) (v : RegValue) : (s.respond v).pec = none := rfl
@[simp] theorem State.respond_cur (s : State) (v : RegValue) : (s.respond v).cur = none := rfl
@[simp] theorem State.respond_tacc (s : State) (v : RegValue) : (s.respond v).tacc = none := rfl
@[simp] theorem State.respond_pending (s : State) (v : RegValue) :
    (s.respond v).pending = some (responseWord .ok v) := rfl
@[simp] theorem State.respond_resetLine (s : State) (v : RegValue) : (s.respond v).resetLine = s.resetLine := rfl
@[simp] theorem State.respond_inbox (s : State) (v : RegValue) : (s.respond v).inbox = s.inbox := rfl
@[simp] theorem State.respond_reads (s : State) (v : RegValue) : (s.respond v).reads = s.reads := rfl
@[simp] theorem State.respond_writes (s : State) (v : RegValue) : (s.respond v).writes = s.writes := rfl
@[simp] theorem State.respond_delays (s : State) (v : RegValue) : (s.respond v).delays = s.delays := rfl
@[simp] theorem State.respond_trace (s : State) (v : RegValue) :
    (s.respond v).trace = s.trace ++ [.response (responseWord .ok v)] := rfl
@[simp] theorem State.respond_codes (s : State) (v : RegValue) : (s.respond v).codes = s.codes := rfl

@[simp] theorem State.raise_cfg (s : State) (k : Status) : (s.raise k).cfg = s.cfg := rfl
@[simp] theorem State.raise_addr (s : State) (k : Status) : (s.raise k).addr = s.addr := rfl
@[simp] theorem State.raise_acc (s : State) (k : Status) : (s.raise k).acc = s.acc := rfl
@[simp] theorem State.raise_phase (s : State) (k : Status) : (s.raise k).phase = .idle := rfl
@[simp] theorem State.raise_sel (s : State) (k : Status) : (s.raise k).sel = none := rfl
@[simp] theorem State.raise_cmd (s : State) (k : Status) : (s.raise k).cmd = none := rfl
@[simp] theorem State.raise_val (s : State) (k : Status) : (s.raise k).val = none := rfl
@[simp] theorem State.raise_lo (s : State) (k : Status) : (s.raise k).lo = none := rfl
@[simp] theorem State.raise_hi (s : State) (k : Status) : (s.raise k).hi = none := rfl
@[simp] theorem State.raise_pec (s : State) (k : Status) : (s.raise k).pec = none := rfl
@[simp] theorem State.raise_cur (s : State) (k : Status) : (s.raise k).cur = none := rfl
@[simp] theorem State.raise_tacc (s : State) (k : Status) : (s.raise k).tacc = none := rfl
@[simp] theorem State.raise_pending (s : State) (k : Status) : (s.raise k).pending = some (responseWord k 0) := rfl
@[simp] theorem State.raise_resetLine (s : State) (k : Status) : (s.raise k).resetLine = s.resetLine := rfl
@[simp] theorem State.raise_inbox (s : State) (k : Status) : (s.raise k).inbox = s.inbox := rfl
@[simp] theorem State.raise_reads (s : State) (k : Status) : (s.raise k).reads = s.reads := rfl
@[simp] theorem State.raise_writes (s : State) (k : Status) : (s.raise k).writes = s.writes := rfl
@[simp] theorem State.raise_delays (s : State) (k : Status) : (s.raise k).delays = s.delays := rfl
@[simp] theorem State.raise_trace (s : State) (k : Status) :
    (s.raise k).trace = s.trace ++ [.response (responseWord k 0)] := rfl
@[simp] theorem State.raise_codes (s : State) (k : Status) : (s.raise k).codes = s.codes := rfl

@[simp] theorem State.lookUp_cfg (s : State) (x : Selector) : (s.lookUp x).cfg = s.cfg := rfl
@[simp] theorem State.lookUp_addr (s : State) (x : Selector) : (s.lookUp x).addr = s.addr := rfl
@[simp] theorem State.lookUp_acc (s : State) (x : Selector) : (s.lookUp x).acc = s.acc := rfl
@[simp] theorem State.lookUp_phase (s : State) (x : Selector) : (s.lookUp x).phase = s.phase := rfl
@[simp] theorem State.lookUp_sel (s : State) (x : Selector) : (s.lookUp x).sel = s.sel := rfl
@[simp] theorem State.lookUp_cmd (s : State) (x : Selector) : (s.lookUp x).cmd = s.cmd := rfl
@[simp] theorem State.lookUp_val (s : State) (x : Selector) : (s.lookUp x).val = s.val := rfl
@[simp] theorem State.lookUp_lo (s : State) (x : Selector) : (s.lookUp x).lo = s.lo := rfl
@[simp] theorem State.lookUp_hi (s : State) (x : Selector) : (s.lookUp x).hi = s.hi := rfl
@[simp] theorem State.lookUp_pec (s : State) (x : Selector) : (s.lookUp x).pec = s.pec := rfl
@[simp] theorem State.lookUp_cur (s : State) (x : Selector) : (s.lookUp x).cur = s.cur := rfl
@[simp] theorem State.lookUp_tacc (s : State) (x : Selector) : (s.lookUp x).tacc = s.tacc := rfl
@[simp] theorem State.lookUp_pending (s : State) (x : Selector) : (s.lookUp x).pending = s.pending := rfl
@[simp] theorem State.lookUp_resetLine (s : State) (x : Selector) : (s.lookUp x).resetLine = s.resetLine := rfl
@[simp] theorem State.lookUp_inbox (s : State) (x : Selector) : (s.lookUp x).inbox = s.inbox := rfl
@[simp] theorem State.lookUp_reads (s : State) (x : Selector) : (s.lookUp x).reads = s.reads := rfl
@[simp] theorem State.lookUp_writes (s : State) (x : Selector) : (s.lookUp x).writes = s.writes := rfl
@[simp] theorem State.lookUp_delays (s : State) (x : Selector) : (s.lookUp x).delays = s.delays := rfl
@[simp] theorem State.lookUp_trace (s : State) (x : Selector) : (s.lookUp x).trace = s.trace := rfl
@[simp] theorem State.lookUp_codes (s : State) (x : Selector) : (s.lookUp x).codes = s.codes ++ [s.cfg.code x] := rfl

@[simp] theorem State.accept_cfg (s : State) (x : Selector) (v : Option RegValue) : (s.accept x v).cfg = s.cfg := rfl
@[simp] theorem State.accept_addr (s : State) (x : Selector) (v : Option RegValue) :
    (s.accept x v).addr = s.addr := rfl
@[simp] theorem State.accept_acc (s : State) (x : Selector) (v : Option RegValue) : (s.accept x v).acc = s.acc := rfl
@[simp] theorem State.accept_phase (s : State) (x : Selector) (v : Option RegValue) :
    (s.accept x v).phase = s.phase := rfl
@[simp] theorem State.accept_sel (s : State) (x : Selector) (v : Option RegValue) :
    (s.accept x v).sel = some x.number := rfl
@[simp] theorem State.accept_cmd (s : State) (x : Selector) (v : Option RegValue) :
    (s.accept x v).cmd = some (s.cfg.code x) := rfl
@[simp] theorem State.accept_val (s : State) (x : Selector) (v : Option RegValue) : (s.accept x v).val = v := rfl
@[simp] theorem State.accept_lo (s : State) (x : Selector) (v : Option RegValue) : (s.accept x v).lo = none := rfl
@[simp] theorem State.accept_hi (s : State) (x : Selector) (v : Option RegValue) : (s.accept x v).hi = none := rfl
@[simp] theorem State.accept_pec (s : State) (x : Selector) (v : Option RegValue) : (s.accept x v).pec = none := rfl
@[simp] theorem State.accept_cur (s : State) (x : Selector) (v : Option RegValue) : (s.accept x v).cur = none := rfl
@[simp] theorem State.accept_tacc (s : State) (x : Selector) (v : Option RegValue) :
    (s.accept x v).tacc = none := rfl
@[simp] theorem State.accept_pending (s : State) (x : Selector) (v : Option RegValue) :
    (s.accept x v).pending = none := rfl
@[simp] theorem State.accept_resetLine (s : State) (x : Selector) (v : Option RegValue) :
    (s.accept x v).resetLine = s.resetLine := rfl
@[simp] theorem State.accept_inbox (s : State) (x : Selector) (v : Option RegValue) :
    (s.accept x v).inbox = s.inbox := rfl
@[simp] theorem State.accept_reads (s : State) (x : Selector) (v : Option RegValue) :
    (s.accept x v).reads = s.reads := rfl
@[simp] theorem State.accept_writes (s : State) (x : Selector) (v : Option RegValue) :
    (s.accept x v).writes = s.writes := rfl
@[simp] theorem State.accept_delays (s : State) (x : Selector) (v : Option RegValue) :
    (s.accept x v).delays = s.delays := rfl
@[simp] theorem State.accept_trace (s : State) (x : Selector) (v : Option RegValue) :
    (s.accept x v).trace = s.trace := rfl
@[simp] theorem State.accept_codes (s : State) (x : Selector) (v : Option RegValue) :
    (s.accept x v).codes = s.codes ++ [s.cfg.code x] := rfl

@[simp] theorem State.callRead_cfg (s : State) (p : Phase) (c : Byte) : (s.callRead p c).cfg = s.cfg := rfl
@[simp] theorem State.callRead_addr (s : State) (p : Phase) (c : Byte) : (s.callRead p c).addr = s.addr := rfl
@[simp] theorem State.callRead_acc (s : State) (p : Phase) (c : Byte) : (s.callRead p c).acc = s.acc := rfl
@[simp] theorem State.callRead_phase (s : State) (p : Phase) (c : Byte) : (s.callRead p c).phase = p := rfl
@[simp] theorem State.callRead_sel (s : State) (p : Phase) (c : Byte) : (s.callRead p c).sel = s.sel := rfl
@[simp] theorem State.callRead_cmd (s : State) (p : Phase) (c : Byte) : (s.callRead p c).cmd = s.cmd := rfl
@[simp] theorem State.callRead_val (s : State) (p : Phase) (c : Byte) : (s.callRead p c).val = s.val := rfl
@[simp] theorem State.callRead_lo (s : State) (p : Phase) (c : Byte) : (s.callRead p c).lo = s.lo := rfl
@[simp] theorem State.callRead_hi (s : State) (p : Phase) (c : Byte) : (s.callRead p c).hi = s.hi := rfl
@[simp] theorem State.callRead_pec (s : State) (p : Phase) (c : Byte) : (s.callRead p c).pec = s.pec := rfl
@[simp] theorem State.callRead_cur (s : State) (p : Phase) (c : Byte) : (s.callRead p c).cur = s.cur := rfl
@[simp] theorem State.callRead_tacc (s : State) (p : Phase) (c : Byte) : (s.callRead p c).tacc = s.tacc := rfl
@[simp] theorem State.callRead_pending (s : State) (p : Phase) (c : Byte) :
    (s.callRead p c).pending = s.pending := rfl
@[simp] theorem State.callRead_resetLine (s : State) (p : Phase) (c : Byte) :
    (s.callRead p c).resetLine = s.resetLine := rfl
@[simp] theorem State.callRead_inbox (s : State) (p : Phase) (c : Byte) : (s.callRead p c).inbox = s.inbox := rfl
@[simp] theorem State.callRead_reads (s : State) (p : Phase) (c : Byte) : (s.callRead p c).reads = s.reads := rfl
@[simp] theorem State.callRead_writes (s : State) (p : Phase) (c : Byte) : (s.callRead p c).writes = s.writes := rfl
@[simp] theorem State.callRead_delays (s : State) (p : Phase) (c : Byte) : (s.callRead p c).delays = s.delays := rfl
@[simp] theorem State.callRead_trace (s : State) (p : Phase) (c : Byte) :
    (s.callRead p c).trace = s.trace ++ [.transportRead (saw s.addr) c Config.readCount s.cfg.timeout] := rfl
@[simp] theorem State.callRead_codes (s : State) (p : Phase) (c : Byte) : (s.callRead p c).codes = s.codes := rfl

@[simp] theorem State.callWrite_cfg (s : State) (p : Phase) (c : Byte) (l : List Byte) :
    (s.callWrite p c l).cfg = s.cfg := rfl
@[simp] theorem State.callWrite_addr (s : State) (p : Phase) (c : Byte) (l : List Byte) :
    (s.callWrite p c l).addr = s.addr := rfl
@[simp] theorem State.callWrite_acc (s : State) (p : Phase) (c : Byte) (l : List Byte) :
    (s.callWrite p c l).acc = s.acc := rfl
@[simp] theorem State.callWrite_phase (s : State) (p : Phase) (c : Byte) (l : List Byte) :
    (s.callWrite p c l).phase = p := rfl
@[simp] theorem State.callWrite_sel (s : State) (p : Phase) (c : Byte) (l : List Byte) :
    (s.callWrite p c l).sel = s.sel := rfl
@[simp] theorem State.callWrite_cmd (s : State) (p : Phase) (c : Byte) (l : List Byte) :
    (s.callWrite p c l).cmd = s.cmd := rfl
@[simp] theorem State.callWrite_val (s : State) (p : Phase) (c : Byte) (l : List Byte) :
    (s.callWrite p c l).val = s.val := rfl
@[simp] theorem State.callWrite_lo (s : State) (p : Phase) (c : Byte) (l : List Byte) :
    (s.callWrite p c l).lo = s.lo := rfl
@[simp] theorem State.callWrite_hi (s : State) (p : Phase) (c : Byte) (l : List Byte) :
    (s.callWrite p c l).hi = s.hi := rfl
@[simp] theorem State.callWrite_pec (s : State) (p : Phase) (c : Byte) (l : List Byte) :
    (s.callWrite p c l).pec = s.pec := rfl
@[simp] theorem State.callWrite_cur (s : State) (p : Phase) (c : Byte) (l : List Byte) :
    (s.callWrite p c l).cur = s.cur := rfl
@[simp] theorem State.callWrite_tacc (s : State) (p : Phase) (c : Byte) (l : List Byte) :
    (s.callWrite p c l).tacc = s.tacc := rfl
@[simp] theorem State.callWrite_pending (s : State) (p : Phase) (c : Byte) (l : List Byte) :
    (s.callWrite p c l).pending = s.pending := rfl
@[simp] theorem State.callWrite_resetLine (s : State) (p : Phase) (c : Byte) (l : List Byte) :
    (s.callWrite p c l).resetLine = s.resetLine := rfl
@[simp] theorem State.callWrite_inbox (s : State) (p : Phase) (c : Byte) (l : List Byte) :
    (s.callWrite p c l).inbox = s.inbox := rfl
@[simp] theorem State.callWrite_reads (s : State) (p : Phase) (c : Byte) (l : List Byte) :
    (s.callWrite p c l).reads = s.reads := rfl
@[simp] theorem State.callWrite_writes (s : State) (p : Phase) (c : Byte) (l : List Byte) :
    (s.callWrite p c l).writes = s.writes := rfl
@[simp] theorem State.callWrite_delays (s : State) (p : Phase) (c : Byte) (l : List Byte) :
    (s.callWrite p c l).delays = s.delays := rfl
@[simp] theorem State.callWrite_trace (s : State) (p : Phase) (c : Byte) (l : List Byte) :
    (s.callWrite p c l).trace = s.trace ++ [.transportWrite (saw s.addr) c l s.cfg.timeout] := rfl
@[simp] theorem State.callWrite_codes (s : State) (p : Phase) (c : Byte) (l : List Byte) :
    (s.callWrite p c l).codes = s.codes := rfl

@[simp] theorem State.callDelay_cfg (s : State) (p : Phase) : (s.callDelay p).cfg = s.cfg := rfl
@[simp] theorem State.callDelay_addr (s : State) (p : Phase) : (s.callDelay p).addr = s.addr := rfl
@[simp] theorem State.callDelay_acc (s : State) (p : Phase) : (s.callDelay p).acc = s.acc := rfl
@[simp] theorem State.callDelay_phase (s : State) (p : Phase) : (s.callDelay p).phase = p := rfl
@[simp] theorem State.callDelay_sel (s : State) (p : Phase) : (s.callDelay p).sel = s.sel := rfl
@[simp] theorem State.callDelay_cmd (s : State) (p : Phase) : (s.callDelay p).cmd = s.cmd := rfl
@[simp] theorem State.callDelay_val (s : State) (p : Phase) : (s.callDelay p).val = s.val := rfl
@[simp] theorem State.callDelay_lo (s : State) (p : Phase) : (s.callDelay p).lo = s.lo := rfl
@[simp] theorem State.callDelay_hi (s : State) (p : Phase) : (s.callDelay p).hi = s.hi := rfl
@[simp] theorem State.callDelay_pec (s : State) (p : Phase) : (s.callDelay p).pec = s.pec := rfl
@[simp] theorem State.callDelay_cur (s : State) (p : Phase) : (s.callDelay p).cur = s.cur := rfl
@[simp] theorem State.callDelay_tacc (s : State) (p : Phase) : (s.callDelay p).tacc = s.tacc := rfl
@[simp] theorem State.callDelay_pending (s : State) (p : Phase) : (s.callDelay p).pending = s.pending := rfl
@[simp] theorem State.callDelay_resetLine (s : State) (p : Phase) : (s.callDelay p).resetLine = s.resetLine := rfl
@[simp] theorem State.callDelay_inbox (s : State) (p : Phase) : (s.callDelay p).inbox = s.inbox := rfl
@[simp] theorem State.callDelay_reads (s : State) (p : Phase) : (s.callDelay p).reads = s.reads := rfl
@[simp] theorem State.callDelay_writes (s : State) (p : Phase) : (s.callDelay p).writes = s.writes := rfl
@[simp] theorem State.callDelay_delays (s : State) (p : Phase) : (s.callDelay p).delays = s.delays := rfl
@[simp] theorem State.callDelay_trace (s : State) (p : Phase) :
    (s.callDelay p).trace = s.trace ++ [.delay Config.settle] := rfl
@[simp] theorem State.callDelay_codes (s : State) (p : Phase) : (s.callDelay p).codes = s.codes := rfl

@[simp] theorem State.sendWord_cfg (s : State) (p : Phase) (c : Byte) (v : RegValue) :
    (s.sendWord p c v).cfg = s.cfg := rfl
@[simp] theorem State.sendWord_addr (s : State) (p : Phase) (c : Byte) (v : RegValue) :
    (s.sendWord p c v).addr = s.addr := rfl
@[simp] theorem State.sendWord_acc (s : State) (p : Phase) (c : Byte) (v : RegValue) :
    (s.sendWord p c v).acc = s.acc := rfl
@[simp] theorem State.sendWord_phase (s : State) (p : Phase) (c : Byte) (v : RegValue) :
    (s.sendWord p c v).phase = p := rfl
@[simp] theorem State.sendWord_sel (s : State) (p : Phase) (c : Byte) (v : RegValue) :
    (s.sendWord p c v).sel = s.sel := rfl
@[simp] theorem State.sendWord_cmd (s : State) (p : Phase) (c : Byte) (v : RegValue) :
    (s.sendWord p c v).cmd = s.cmd := rfl
@[simp] theorem State.sendWord_val (s : State) (p : Phase) (c : Byte) (v : RegValue) :
    (s.sendWord p c v).val = s.val := rfl
@[simp] theorem State.sendWord_lo (s : State) (p : Phase) (c : Byte) (v : RegValue) :
    (s.sendWord p c v).lo = some (lowByte v) := rfl
@[simp] theorem State.sendWord_hi (s : State) (p : Phase) (c : Byte) (v : RegValue) :
    (s.sendWord p c v).hi = some (highByte v) := rfl
@[simp] theorem State.sendWord_pec (s : State) (p : Phase) (c : Byte) (v : RegValue) :
    (s.sendWord p c v).pec = some (compute (writeFrame s.addr c v)) := rfl
@[simp] theorem State.sendWord_cur (s : State) (p : Phase) (c : Byte) (v : RegValue) :
    (s.sendWord p c v).cur = s.cur := rfl
@[simp] theorem State.sendWord_tacc (s : State) (p : Phase) (c : Byte) (v : RegValue) :
    (s.sendWord p c v).tacc = some (compute (writeFrame s.addr c v)) := rfl
@[simp] theorem State.sendWord_pending (s : State) (p : Phase) (c : Byte) (v : RegValue) :
    (s.sendWord p c v).pending = s.pending := rfl
@[simp] theorem State.sendWord_resetLine (s : State) (p : Phase) (c : Byte) (v : RegValue) :
    (s.sendWord p c v).resetLine = s.resetLine := rfl
@[simp] theorem State.sendWord_inbox (s : State) (p : Phase) (c : Byte) (v : RegValue) :
    (s.sendWord p c v).inbox = s.inbox := rfl
@[simp] theorem State.sendWord_reads (s : State) (p : Phase) (c : Byte) (v : RegValue) :
    (s.sendWord p c v).reads = s.reads := rfl
@[simp] theorem State.sendWord_writes (s : State) (p : Phase) (c : Byte) (v : RegValue) :
    (s.sendWord p c v).writes = s.writes := rfl
@[simp] theorem State.sendWord_delays (s : State) (p : Phase) (c : Byte) (v : RegValue) :
    (s.sendWord p c v).delays = s.delays := rfl
@[simp] theorem State.sendWord_trace (s : State) (p : Phase) (c : Byte) (v : RegValue) :
    (s.sendWord p c v).trace = s.trace ++ [.transportWrite (saw s.addr) c [lowByte v, highByte v, compute (writeFrame s.addr c v)] s.cfg.timeout] := rfl
@[simp] theorem State.sendWord_codes (s : State) (p : Phase) (c : Byte) (v : RegValue) :
    (s.sendWord p c v).codes = s.codes := rfl

@[simp] theorem State.sendSleep_cfg (s : State) (p : Phase) (c : Byte) : (s.sendSleep p c).cfg = s.cfg := rfl
@[simp] theorem State.sendSleep_addr (s : State) (p : Phase) (c : Byte) : (s.sendSleep p c).addr = s.addr := rfl
@[simp] theorem State.sendSleep_acc (s : State) (p : Phase) (c : Byte) : (s.sendSleep p c).acc = s.acc := rfl
@[simp] theorem State.sendSleep_phase (s : State) (p : Phase) (c : Byte) : (s.sendSleep p c).phase = p := rfl
@[simp] theorem State.sendSleep_sel (s : State) (p : Phase) (c : Byte) : (s.sendSleep p c).sel = s.sel := rfl
@[simp] theorem State.sendSleep_cmd (s : State) (p : Phase) (c : Byte) : (s.sendSleep p c).cmd = s.cmd := rfl
@[simp] theorem State.sendSleep_val (s : State) (p : Phase) (c : Byte) : (s.sendSleep p c).val = s.val := rfl
@[simp] theorem State.sendSleep_lo (s : State) (p : Phase) (c : Byte) : (s.sendSleep p c).lo = s.lo := rfl
@[simp] theorem State.sendSleep_hi (s : State) (p : Phase) (c : Byte) : (s.sendSleep p c).hi = s.hi := rfl
@[simp] theorem State.sendSleep_pec (s : State) (p : Phase) (c : Byte) :
    (s.sendSleep p c).pec = some (compute (sleepFrame s.addr c)) := rfl
@[simp] theorem State.sendSleep_cur (s : State) (p : Phase) (c : Byte) : (s.sendSleep p c).cur = s.cur := rfl
@[simp] theorem State.sendSleep_tacc (s : State) (p : Phase) (c : Byte) :
    (s.sendSleep p c).tacc = some (compute (sleepFrame s.addr c)) := rfl
@[simp] theorem State.sendSleep_pending (s : State) (p : Phase) (c : Byte) :
    (s.sendSleep p c).pending = s.pending := rfl
@[simp] theorem State.sendSleep_resetLine (s : State) (p : Phase) (c : Byte) :
    (s.sendSleep p c).resetLine = s.resetLine := rfl
@[simp] theorem State.sendSleep_inbox (s : State) (p : Phase) (c : Byte) : (s.sendSleep p c).inbox = s.inbox := rfl
@[simp] theorem State.sendSleep_reads (s : State) (p : Phase) (c : Byte) : (s.sendSleep p c).reads = s.reads := rfl
@[simp] theorem State.sendSleep_writes (s : State) (p : Phase) (c : Byte) :
    (s.sendSleep p c).writes = s.writes := rfl
@[simp] theorem State.sendSleep_delays (s : State) (p : Phase) (c : Byte) :
    (s.sendSleep p c).delays = s.delays := rfl
@[simp] theorem State.sendSleep_trace (s : State) (p : Phase) (c : Byte) :
    (s.sendSleep p c).trace = s.trace ++ [.transportWrite (saw s.addr) c [compute (sleepFrame s.addr c)] s.cfg.timeout] := rfl
@[simp] theorem State.sendSleep_codes (s : State) (p : Phase) (c : Byte) : (s.sendSleep p c).codes = s.codes := rfl

end Sys2Proof.Machine
end

