-- ==== Sys2Proof/Laws/Sequencer.lean ====
section
/-! SUPPORT. What each shared operation can do, said once: the outcome of an answer, of one step of the sequencer, and of
driving it. -/

namespace Sys2Proof.Machine

/-! ## Answers -/

/-- A read answer of three bytes with the right checksum lets the request go on; with a wrong one it raises
`ChecksumError`; any other answer raises `TransportError` (42_transactions.md R160). -/
theorem State.receive_cases (s : State) (answer : ReadAnswer) (cmd : Byte) (goOn : RegValue → State → State) :
    (∃ lo hi pec, answer = .ok [lo, hi, pec] ∧ compute (readFrame s.addr cmd lo hi) = pec ∧
      s.receive answer cmd goOn = goOn (valueOfBytes lo hi)
        { s with lo := some lo, hi := some hi, pec := some pec, cur := some (valueOfBytes lo hi),
                 tacc := some pec }) ∨
    (∃ lo hi pec, answer = .ok [lo, hi, pec] ∧ compute (readFrame s.addr cmd lo hi) ≠ pec ∧
      s.receive answer cmd goOn = s.raise .checksumError) ∨
    ((answer = .err ∨ ∃ bytes, answer = .ok bytes ∧ bytes.length ≠ 3) ∧
      s.receive answer cmd goOn = s.raise .transportError) := by
  match answer with
  | .err => exact .inr (.inr ⟨.inl rfl, rfl⟩)
  | .ok [] => exact .inr (.inr ⟨.inr ⟨_, rfl, by simp⟩, rfl⟩)
  | .ok [_] => exact .inr (.inr ⟨.inr ⟨_, rfl, by simp⟩, rfl⟩)
  | .ok [_, _] => exact .inr (.inr ⟨.inr ⟨_, rfl, by simp⟩, rfl⟩)
  | .ok (_ :: _ :: _ :: _ :: _) => exact .inr (.inr ⟨.inr ⟨_, rfl, by simp⟩, rfl⟩)
  | .ok [lo, hi, pec] =>
    by_cases h : compute (readFrame s.addr cmd lo hi) = pec
    · exact .inl ⟨lo, hi, pec, rfl, h, by simp [State.receive, checksumMatches, h]⟩
    · refine .inr (.inl ⟨lo, hi, pec, rfl, h, ?_⟩)
      simp [State.receive, checksumMatches, h, State.raise, State.finish, State.clearLatches]

/-- A good read answer. -/
theorem State.receive_good {s : State} {cmd lo hi pec : Byte} (goOn : RegValue → State → State)
    (h : compute (readFrame s.addr cmd lo hi) = pec) :
    s.receive (.ok [lo, hi, pec]) cmd goOn = goOn (valueOfBytes lo hi)
      { s with lo := some lo, hi := some hi, pec := some pec, cur := some (valueOfBytes lo hi), tacc := some pec } := by
  simp [State.receive, checksumMatches, h]

/-- A read answer whose checksum is wrong: nothing of it is kept (R161). -/
theorem State.receive_bad {s : State} {cmd lo hi pec : Byte} (goOn : RegValue → State → State)
    (h : compute (readFrame s.addr cmd lo hi) ≠ pec) :
    s.receive (.ok [lo, hi, pec]) cmd goOn = s.raise .checksumError := by
  simp [State.receive, checksumMatches, h, State.raise, State.finish, State.clearLatches]

/-- A read answer that is `Err` or not three bytes (20_memory.md R52). -/
theorem State.receive_fail {s : State} {answer : ReadAnswer} (cmd : Byte) (goOn : RegValue → State → State)
    (h : answer = .err ∨ ∃ bytes, answer = .ok bytes ∧ bytes.length ≠ 3) :
    s.receive answer cmd goOn = s.raise .transportError := by
  rcases s.receive_cases answer cmd goOn with ⟨lo, hi, pec, ha, -, -⟩ | ⟨lo, hi, pec, ha, -, -⟩ | ⟨-, hr⟩
  · subst ha; simp at h
  · subst ha; simp at h
  · exact hr

@[simp] theorem State.acknowledge_ok (s : State) (goOn : State → State) : s.acknowledge .ok goOn = goOn s := rfl

@[simp] theorem State.acknowledge_err (s : State) (goOn : State → State) :
    s.acknowledge .err goOn = s.raise .transportError := rfl

/-! ## One step of the sequencer -/

/-- In `IDLE` the sequencer does nothing. -/
@[simp] theorem State.resume_idle {s : State} (h : s.phase = .idle) : s.resume = .next s := by
  simp [State.resume, h]

/-- What the sequencer can do in one step, if it answers a next state: nothing, because the block is in `IDLE` or the
call it waits on has no answer yet; or take one answer, as the phase says (10_state.md R24). -/
theorem State.resume_cases {s t : State} (h : s.resume = .next t) :
    t = s ∨
    (∃ answer rest cmd, s.phase = .rdXfer ∧ s.reads = answer :: rest ∧ s.cmd = some cmd ∧
      t = { s with reads := rest }.receive answer cmd fun value s => s.respond value) ∨
    (∃ answer rest, (s.phase = .wrXfer ∨ s.phase = .slpXfer) ∧ s.writes = answer :: rest ∧
      t = { s with writes := rest }.acknowledge answer fun s => s.respond 0x0000#16) ∨
    (∃ answer rest cmd val, s.phase = .eeRead ∧ s.reads = answer :: rest ∧ s.cmd = some cmd ∧ s.val = some val ∧
      t = { s with reads := rest }.receive answer cmd fun cur s =>
        if alreadyHolds cur val then s.respond 0x0000#16 else s.sendWord .eeErase cmd Config.eraseValue) ∨
    (∃ answer rest, s.phase = .eeErase ∧ s.writes = answer :: rest ∧
      t = { s with writes := rest }.acknowledge answer fun s => s.callDelay .eeWait1) ∨
    (∃ n cmd val, s.phase = .eeWait1 ∧ s.delays = n + 1 ∧ s.cmd = some cmd ∧ s.val = some val ∧
      t = { s with delays := n }.sendWord .eeProg cmd val) ∨
    (∃ answer rest, s.phase = .eeProg ∧ s.writes = answer :: rest ∧
      t = { s with writes := rest }.acknowledge answer fun s => s.callDelay .eeWait2) ∨
    (∃ n, s.phase = .eeWait2 ∧ s.delays = n + 1 ∧ t = { s with delays := n }.respond 0x0000#16) := by
  have read {k : ReadAnswer → State → Result} (h : s.onRead k = .next t) :
      t = s ∨ ∃ answer rest, s.reads = answer :: rest ∧ k answer { s with reads := rest } = .next t := by
    unfold State.onRead at h
    split at h
    · exact .inl (by simpa using h.symm)
    · next answer rest hr => exact .inr ⟨answer, rest, hr, h⟩
  have write {k : WriteAnswer → State → Result} (h : s.onWrite k = .next t) :
      t = s ∨ ∃ answer rest, s.writes = answer :: rest ∧ k answer { s with writes := rest } = .next t := by
    unfold State.onWrite at h
    split at h
    · exact .inl (by simpa using h.symm)
    · next answer rest hw => exact .inr ⟨answer, rest, hw, h⟩
  have delay {k : State → Result} (h : s.onDelay k = .next t) :
      t = s ∨ ∃ n, s.delays = n + 1 ∧ k { s with delays := n } = .next t := by
    unfold State.onDelay at h
    split at h
    · exact .inl (by simpa using h.symm)
    · next n hd => exact .inr ⟨n, hd, h⟩
  have latch {α : Type} {name : LatchName} {l : Option α} {k : α → Result} (h : withLatch name l k = .next t) :
      ∃ v, l = some v ∧ k v = .next t := by
    cases l with
    | none => simp [withLatch] at h
    | some v => exact ⟨v, rfl, h⟩
  unfold State.resume at h
  split at h
  · exact .inl (by simpa using h.symm)
  · next hp =>
    obtain rfl | ⟨answer, rest, hr, h⟩ := read h
    · exact .inl rfl
    obtain ⟨cmd, hc, h⟩ := latch h
    exact .inr (.inl ⟨answer, rest, cmd, hp, hr, hc, by simpa using h.symm⟩)
  · next hp =>
    obtain rfl | ⟨answer, rest, hw, h⟩ := write h
    · exact .inl rfl
    exact .inr (.inr (.inl ⟨answer, rest, .inl hp, hw, by simpa using h.symm⟩))
  · next hp =>
    obtain rfl | ⟨answer, rest, hw, h⟩ := write h
    · exact .inl rfl
    exact .inr (.inr (.inl ⟨answer, rest, .inr hp, hw, by simpa using h.symm⟩))
  · next hp =>
    obtain rfl | ⟨answer, rest, hr, h⟩ := read h
    · exact .inl rfl
    obtain ⟨cmd, hc, h⟩ := latch h
    obtain ⟨val, hv, h⟩ := latch h
    exact .inr (.inr (.inr (.inl ⟨answer, rest, cmd, val, hp, hr, hc, hv, by simpa using h.symm⟩)))
  · next hp =>
    obtain rfl | ⟨answer, rest, hw, h⟩ := write h
    · exact .inl rfl
    exact .inr (.inr (.inr (.inr (.inl ⟨answer, rest, hp, hw, by simpa using h.symm⟩))))
  · next hp =>
    obtain rfl | ⟨n, hd, h⟩ := delay h
    · exact .inl rfl
    obtain ⟨cmd, hc, h⟩ := latch h
    obtain ⟨val, hv, h⟩ := latch h
    exact .inr (.inr (.inr (.inr (.inr (.inl ⟨n, cmd, val, hp, hd, hc, hv, by simpa using h.symm⟩)))))
  · next hp =>
    obtain rfl | ⟨answer, rest, hw, h⟩ := write h
    · exact .inl rfl
    exact .inr (.inr (.inr (.inr (.inr (.inr (.inl ⟨answer, rest, hp, hw, by simpa using h.symm⟩))))))
  · next hp =>
    obtain rfl | ⟨n, hd, h⟩ := delay h
    · exact .inl rfl
    exact .inr (.inr (.inr (.inr (.inr (.inr (.inr ⟨n, hp, hd, by simpa using h.symm⟩))))))

/-! ## Driving the sequencer -/

/-- Where one step of the sequencer goes on to `t`, driving it goes on from `t`. -/
theorem State.resumeUpTo_succ {s t : State} (n : Nat) (h : s.resume = .next t) :
    s.resumeUpTo (n + 1) = t.resumeUpTo n := by
  simp [State.resumeUpTo, h]

/-- Where the sequencer stands still, it goes on standing still. -/
theorem State.resumeUpTo_still {s : State} (h : s.resume = .next s) (n : Nat) : s.resumeUpTo n = .next s := by
  induction n with
  | zero => rfl
  | succ n ih => rw [State.resumeUpTo_succ n h, ih]

/-- In `IDLE` there is nothing to drive. -/
@[simp] theorem State.resumeUpTo_idle {s : State} (h : s.phase = .idle) (n : Nat) : s.resumeUpTo n = .next s :=
  State.resumeUpTo_still (State.resume_idle h) n

/-- What every step of the sequencer keeps, driving it keeps. -/
theorem State.resumeUpTo_induct {P : State → Prop} (keeps : ∀ s t, P s → s.resume = .next t → P t) {n : Nat}
    {s t : State} (hs : P s) (h : s.resumeUpTo n = .next t) : P t := by
  induction n generalizing s with
  | zero => simp only [State.resumeUpTo, Host.Outcome.next.injEq] at h; exact h ▸ hs
  | succ n ih =>
    simp only [State.resumeUpTo] at h
    split at h
    · next u hu => exact ih (keeps s u hs hu) h
    · exact absurd h (by simp_all)

/-- What one step of the sequencer leaves alone, driving it leaves alone. -/
theorem State.resumeUpTo_frame {α : Type} {f : State → α} (frame : ∀ s t, s.resume = .next t → f t = f s) {n : Nat}
    {s t : State} (h : s.resumeUpTo n = .next t) : f t = f s :=
  State.resumeUpTo_induct (P := fun x => f x = f s) (fun a b ha hb => (frame a b hb).trans ha) rfl h

/-- The sequencer changes no register, no parameter and no input but the answers it takes. -/
theorem State.resume_frame {s t : State} (h : s.resume = .next t) :
    t.cfg = s.cfg ∧ t.addr = s.addr ∧ t.acc = s.acc ∧ t.resetLine = s.resetLine ∧ t.inbox = s.inbox ∧
      t.codes = s.codes := by
  have received (u : State) (a : ReadAnswer) (c : Byte) (k : RegValue → State → State)
      (hk : ∀ v x, (k v x).cfg = x.cfg ∧ (k v x).addr = x.addr ∧ (k v x).acc = x.acc ∧
        (k v x).resetLine = x.resetLine ∧ (k v x).inbox = x.inbox ∧ (k v x).codes = x.codes) :
      (u.receive a c k).cfg = u.cfg ∧ (u.receive a c k).addr = u.addr ∧ (u.receive a c k).acc = u.acc ∧
        (u.receive a c k).resetLine = u.resetLine ∧ (u.receive a c k).inbox = u.inbox ∧
        (u.receive a c k).codes = u.codes := by
    obtain ⟨_, _, _, -, -, hr⟩ | ⟨_, _, _, -, -, hr⟩ | ⟨-, hr⟩ := u.receive_cases a c k
    · rw [hr]; exact hk _ _
    · simp [hr]
    · simp [hr]
  obtain rfl | ⟨a, r, c, -, -, -, rfl⟩ | ⟨a, r, -, -, rfl⟩ | ⟨a, r, c, v, -, -, -, -, rfl⟩ | ⟨a, r, -, -, rfl⟩ |
    ⟨n, c, v, -, -, -, -, rfl⟩ | ⟨a, r, -, -, rfl⟩ | ⟨n, -, -, rfl⟩ := State.resume_cases h
  · simp
  · exact received _ _ _ _ fun _ _ => by simp
  · cases a <;> simp
  · exact received _ _ _ _ fun _ _ => by split <;> simp
  · cases a <;> simp
  · simp
  · cases a <;> simp
  · simp

end Sys2Proof.Machine
end

