-- ==== Sys2Proof/Laws/Step.lean ====
section
/-! SUPPORT. What an instruction and a step can do, said once; later proofs cite these instead of unfolding `exec` and
`step`. -/

namespace Sys2Proof

/-- The instruction of a selector's row looks that selector up. -/
@[simp] theorem Selector.row_lookup (sel : Selector) : sel.row.lookup? = some sel := by
  cases sel <;> rfl

end Sys2Proof

namespace Sys2Proof.Machine

/-- The state in which a transaction waits on its first call, before any answer (42_transactions.md R160, R163, R165;
43_persistent_writer.md R180); none for an instruction that makes no call. -/
def State.started (s : State) : Instr → Option State
  | .rd16 sel => some ((s.accept sel none).callRead .rdXfer (s.cfg.code sel))
  | .wr16 sel v => some ((s.accept sel (some v)).sendWord .wrXfer (s.cfg.code sel) v)
  | .wree sel v => some ((s.accept sel (some v)).callRead .eeRead (s.cfg.code sel))
  | .slp => some ((s.accept .sleep none).sendSleep .slpXfer (s.cfg.code .sleep))
  | .ckClr | .ckUpd _ | .ckGet | .cfgAddr _ | .cmdRawir1 | .cmdRawir2 | .cmdTa | .cmdTobj1 | .cmdTobj2 | .cmdTomax
  | .cmdTomin | .cmdPwmctrl | .cmdTarange | .cmdEmiss | .cmdConfig1 | .cmdSmbaddr | .cmdId1 | .cmdId2 | .cmdId3
  | .cmdId4 | .cmdFlags | .cmdSleep => none

/-- What an instruction does: a row of the command-code table is a look-up; `CK.CLR`, `CK.UPD`, `CK.GET` and
`CFG.ADDR` write their register and respond; a transaction starts and is driven on. -/
theorem exec_cases (i : Instr) (s : State) :
    (∃ sel, i.lookup? = some sel ∧ exec i s = .next (s.lookUp sel)) ∨
    (i = .ckClr ∧ exec i s = .next ({ s with acc := Config.ckInit }.respond (Config.ckInit.zeroExtend 16))) ∨
    (∃ b, i = .ckUpd b ∧
      exec i s = .next ({ s with acc := ck8Step s.acc b }.respond ((ck8Step s.acc b).zeroExtend 16))) ∨
    (i = .ckGet ∧ exec i s = .next (s.respond (s.acc.zeroExtend 16))) ∨
    (∃ a7, i = .cfgAddr a7 ∧ exec i s = .next ({ s with addr := a7 }.respond (a7.zeroExtend 16))) ∨
    (∃ u, i.lookup? = none ∧ s.started i = some u ∧ exec i s = u.drive) := by
  cases i
  case ckClr => exact .inr (.inl ⟨rfl, rfl⟩)
  case ckUpd b => exact .inr (.inr (.inl ⟨b, rfl, rfl⟩))
  case ckGet => exact .inr (.inr (.inr (.inl ⟨rfl, rfl⟩)))
  case cfgAddr a7 => exact .inr (.inr (.inr (.inr (.inl ⟨a7, rfl, rfl⟩))))
  case rd16 sel => exact .inr (.inr (.inr (.inr (.inr ⟨_, rfl, rfl, rfl⟩))))
  case wr16 sel v => exact .inr (.inr (.inr (.inr (.inr ⟨_, rfl, rfl, rfl⟩))))
  case wree sel v => exact .inr (.inr (.inr (.inr (.inr ⟨_, rfl, rfl, rfl⟩))))
  case slp => exact .inr (.inr (.inr (.inr (.inr ⟨_, rfl, rfl, rfl⟩))))
  all_goals exact .inl ⟨_, rfl, rfl⟩

/-- A started transaction waits for one selector, whose `SEL` and `CMD` it holds, with no response pending. -/
theorem State.started_waits {s u : State} {i : Instr} (h : s.started i = some u) :
    u.phase ≠ .idle ∧ u.pending = none ∧
      ∃ sel : Selector, u.sel = some sel.number ∧ u.cmd = some (u.cfg.code sel) ∧ u.waitsFor sel := by
  cases i <;> simp only [State.started, Option.some.injEq, reduceCtorEq] at h <;> subst h
  case rd16 sel =>
    exact ⟨by simp, by simp, sel, by simp, by simp,
      by simp [State.waitsFor, State.transferEmpty, State.readCalled]⟩
  case wr16 sel v =>
    exact ⟨by simp, by simp, sel, by simp, by simp,
      by simp [State.waitsFor, State.holdsWrite, State.writeCalled]⟩
  case wree sel v =>
    exact ⟨by simp, by simp, sel, by simp, by simp,
      by simp [State.waitsFor, State.transferEmpty, State.readCalled]⟩
  case slp => exact ⟨by simp, by simp, .sleep, by simp, by simp, by simp [State.waitsFor]⟩

/-- Starting a transaction changes no register, no parameter and no input. -/
theorem State.started_frame {s u : State} {i : Instr} (h : s.started i = some u) :
    u.cfg = s.cfg ∧ u.addr = s.addr ∧ u.acc = s.acc ∧ u.resetLine = s.resetLine ∧ u.inbox = s.inbox ∧
      u.reads = s.reads ∧ u.writes = s.writes ∧ u.delays = s.delays := by
  cases i <;> simp only [State.started, Option.some.injEq, reduceCtorEq] at h <;> subst h <;> simp

/-- What a step can do, if it answers a next state: carry out a reset in `IDLE`; wait, with nothing offered; run the
offered instruction; answer a malformed request; or go on with the request in progress. -/
theorem step_cases {s t : State} (h : step s = .next t) :
    (s.resetLine = true ∧ s.phase = .idle ∧
      t = { s.abandon with addr := s.cfg.defaultAddr, acc := Config.ckInit, pending := none, resetLine := false }) ∨
    (s.resetLine = false ∧ s.phase = .idle ∧ s.inbox = [] ∧ t = s) ∨
    (∃ o rest i, s.resetLine = false ∧ s.phase = .idle ∧ s.inbox = o :: rest ∧ decode s.cfg o = .ok i ∧
      exec i { s with inbox := rest } = .next t) ∨
    (∃ o rest m, s.resetLine = false ∧ s.phase = .idle ∧ s.inbox = o :: rest ∧ decode s.cfg o = .error m ∧
      m ≠ .noCommandCode ∧ t = { s with inbox := rest }.raise .invalidRequest) ∨
    (s.resetLine = false ∧ s.phase ≠ .idle ∧ s.drive = .next t) := by
  unfold step at h
  by_cases hr : s.resetLine
  · simp only [hr, if_true, State.takeReset] at h
    split at h
    · next hp => exact .inl ⟨hr, hp, by simpa using h.symm⟩
    · simp at h
  · rw [if_neg hr] at h
    simp only [Bool.not_eq_true] at hr
    by_cases hp : s.phase = .idle
    · rw [if_pos hp] at h
      split at h
      · next hi => exact .inr (.inl ⟨hr, hp, hi, by simpa using h.symm⟩)
      · next o rest hi =>
        split at h
        · next i hd => exact .inr (.inr (.inl ⟨o, rest, i, hr, hp, hi, hd, h⟩))
        · next m hd =>
          refine .inr (.inr (.inr (.inl ⟨o, rest, m, hr, hp, hi, hd, ?_, ?_⟩))) <;>
            cases m <;> simp_all [State.refuseOffer]
    · rw [if_neg hp] at h
      exact .inr (.inr (.inr (.inr ⟨hr, hp, h⟩)))

/-- A request that does not come from the `CMD8` form is never rejected as a byte without a code. -/
theorem decodeRequest_malformed {w : Word} {m : Malformed} (h : decodeRequest w = .error m) :
    m ≠ .noCommandCode := by
  rintro rfl
  simp only [decodeRequest, Fields.decode, Fields.decodeBare, Fields.decodeSelector] at h
  repeat' split at h
  all_goals cases h

end Sys2Proof.Machine
end

