-- ==== Sys2Proof/Tests/Slice0.lean ====
section
/-! SUPPORT. Tests of the model's parts. Every expected value is transcribed from the spec: the words from 30_encoding.md R102
and 95_test_vectors.md section 2.6, the codes from 30_encoding.md R100, the bytes and responses from the vectors of
95_test_vectors.md that a test's comment names. -/

namespace Sys2Proof.Tests

open Sys2Proof Sys2Proof.Machine

/-! ## Well-formedness: an ill-formed term for each check -/

/-- R85 (a). -/
theorem test_wf_opcode_zero_refused : (Fields.ofWord 0x00000000#32).opReserved = true := by decide
theorem test_wf_opcode_f_refused : (Fields.ofWord 0xFFFFFFFF#32).opReserved = true := by decide
/-- R85 (b). -/
theorem test_wf_mbz_refused : (Fields.ofWord 0x80220000#32).mbzSet = true := by decide
/-- R85 (c). -/
theorem test_wf_sel_in_slp_refused : (Fields.ofWord 0xB0110000#32).selUnused = true := by decide
/-- R85 (d). -/
theorem test_wf_selector_18_refused : (Fields.ofWord 0x80120000#32).selReserved = true := by decide
theorem test_wf_selector_17_accepted : (Fields.ofWord 0x80110000#32).malformed = false := by decide
/-- R85 (e). -/
theorem test_wf_imm_in_rd16_refused : (Fields.ofWord 0x80020001#32).immUnused = true := by decide
theorem test_wf_address_8_bits_refused : (Fields.ofWord 0x40000080#32).immUnused = true := by decide
theorem test_wf_byte_9_bits_refused : (Fields.ofWord 0x20000100#32).immUnused = true := by decide
/-- R87: 0x80 does not fit the 7 bits of an address. -/
theorem test_wf_fits_refused : fits 7 0x80 = false := by decide
/-- R100: a table with the same code twice is no enumeration. -/
theorem test_wf_config_refused :
    Config.wellFormed { Config.default with cmdCodes := Config.default.cmdCodes.set 0 0xFF#8 } = false := by decide
theorem test_wf_config_default : Config.default.wellFormed = true := by decide

/-! ## Decoding: one word per constructor, and the refused words -/

theorem test_decode_ckClr : decodeTableWord 32 0x10000000 = some .ckClr := by decide
theorem test_decode_ckUpd : decodeTableWord 32 0x200000B4 = some (.ckUpd 0xB4#8) := by decide
theorem test_decode_ckGet : decodeTableWord 32 0x30000000 = some .ckGet := by decide
theorem test_decode_cfgAddr : decodeTableWord 32 0x4000005B = some (.cfgAddr 0x5B#7) := by decide
theorem test_decode_rd16 : decodeTableWord 32 0x80020000 = some (.rd16 .ta) := by decide
theorem test_decode_rd16_sleep : decodeTableWord 32 0x80110000 = some (.rd16 .sleep) := by decide
theorem test_decode_wr16 : decodeTableWord 32 0x90051234 = some (.wr16 .tomax 0x1234#16) := by decide
theorem test_decode_wree : decodeTableWord 32 0xA00B005B = some (.wree .smbaddr 0x005B#16) := by decide
theorem test_decode_slp : decodeTableWord 32 0xB0000000 = some .slp := by decide
/-- The eighteen codes of 30_encoding.md R100, in selector order. -/
theorem test_decode_command_codes :
    [0x04, 0x05, 0x06, 0x07, 0x08, 0x20, 0x21, 0x22, 0x23, 0x24, 0x25,
      0x2E, 0x3C, 0x3D, 0x3E, 0x3F, 0xF0, 0xFF].map (decodeTableWord 8) =
    [.cmdRawir1, .cmdRawir2, .cmdTa, .cmdTobj1, .cmdTobj2, .cmdTomax, .cmdTomin, .cmdPwmctrl,
      .cmdTarange, .cmdEmiss, .cmdConfig1, .cmdSmbaddr,
      .cmdId1, .cmdId2, .cmdId3, .cmdId4, .cmdFlags, .cmdSleep].map some := by decide
theorem test_decode_refused_opcodes :
    [0x00000000, 0xFFFFFFFF, 0x50000000, 0x60000000, 0x70000000, 0xC0000000, 0xD0000000, 0xE0000000].map
      (decodeTableWord 32) = List.replicate 8 none := by decide
theorem test_decode_refused_neighbours :
    [0x80020001, 0x80220000, 0x80120000, 0x801F0000, 0xB0110000, 0x40000080, 0x20000100, 0x10000001].map
      (decodeTableWord 32) = List.replicate 8 none := by decide
theorem test_decode_refused_byte : decodeTableWord 8 0x09 = none := by decide
theorem test_encode_wree : encode Config.default (.wree .emiss 0x8000#16) = .req32 0xA0098000#32 := by decide

/-! ## The checksum -/

/-- 95_test_vectors.md section 2.1. -/
theorem test_ck8Step_80 : ck8Step 0x00#8 0x80#8 = 0x89#8 := by decide
theorem test_ck8Step_F4_5A : ck8Step 0xF4#8 0x5A#8 = 0x43#8 := by decide
theorem test_ck8StepParallel_F4_5A : ck8StepParallel 0xF4#8 0x5A#8 = 0x43#8 := by decide
/-- 95_test_vectors.md section 2.3: the ASCII bytes "123456789". -/
theorem test_compute_check_value :
    compute [0x31, 0x32, 0x33, 0x34, 0x35, 0x36, 0x37, 0x38, 0x39] = 0xF4#8 := by decide +kernel
theorem test_compute_read_frame : compute (readFrame 0x5A#7 0x06#8 0x34#8 0x3A#8) = 0x1B#8 := by decide +kernel

/-! ## One request on a small state -/

/-- The block after reset, with answers waiting at the transport and delay ports. -/
def answered (reads : List ReadAnswer) (writes : List WriteAnswer) (delays : Nat) : State :=
  { State.reset with reads := reads, writes := writes, delays := delays }

/-- What a step leaves for the host and the trace at the ports. -/
def seen (r : Result) : Option (Option Word × List Event) :=
  (nextState r).map fun t => (t.pending, t.trace.filter fun e => !e.isResponse)

/-- 40_checksum_engine.md R122: with `ACC` = 0xE8. -/
theorem test_ckClr : (nextState (exec .ckClr { State.reset with acc := 0xE8#8 })).map
    (fun t => (t.acc, t.pending)) = some (0x00#8, some 0x00000000#32) := by decide
/-- 95_test_vectors.md section 2.4. -/
theorem test_ckUpd : (nextState (exec (.ckUpd 0xFF#8) { State.reset with acc := 0x05#8 })).map
    (fun t => (t.acc, t.pending)) = some (0xE8#8, some 0x000000E8#32) := by decide
theorem test_ckGet : (nextState (exec .ckGet { State.reset with acc := 0xE8#8 })).map
    (fun t => (t.acc, t.pending)) = some (0xE8#8, some 0x000000E8#32) := by decide
/-- 41_encoder.md R146. -/
theorem test_cfgAddr : (nextState (exec (.cfgAddr 0x5B#7) State.reset)).map
    (fun t => (saw t.addr, sar t.addr, t.pending)) = some (0xB6#8, 0xB7#8, some 0x0000005B#32) := by decide
theorem test_sar_7F : (saw 0x7F#7, sar 0x7F#7) = (0xFE#8, 0xFF#8) := by decide
theorem test_cmdEmiss : (nextState (exec .cmdEmiss State.reset)).map (·.codes) = some [0x24#8] := by decide

/-- V-RD1. -/
theorem test_rd16_good : seen (exec (.rd16 .ta) (answered [.ok [0x34, 0x3A, 0x1B]] [] 0)) =
    some (some 0x00003A34#32, [.transportRead 0xB4 0x06 3 100]) := by decide +kernel
/-- V-RD6: the data bytes swapped. -/
theorem test_rd16_swapped : seen (exec (.rd16 .ta) (answered [.ok [0x3A, 0x34, 0x1B]] [] 0)) =
    some (some 0x00020000#32, [.transportRead 0xB4 0x06 3 100]) := by decide +kernel
/-- V-RD21: two bytes. -/
theorem test_rd16_short : seen (exec (.rd16 .ta) (answered [.ok [0x34, 0x3A]] [] 0)) =
    some (some 0x00010000#32, [.transportRead 0xB4 0x06 3 100]) := by decide
/-- V-RD20: at address 0x5B, the checksum that suits 0x5A. -/
theorem test_rd16_address_in_frame :
    seen (exec (.rd16 .ta) { answered [.ok [0x34, 0x3A, 0x1B]] [] 0 with addr := 0x5B#7 }) =
    some (some 0x00020000#32, [.transportRead 0xB6 0x06 3 100]) := by decide +kernel
/-- V-WR5: the low byte first. -/
theorem test_wr16_good : seen (exec (.wr16 .tomax 0x1234#16) (answered [] [.ok] 0)) =
    some (some 0x00000000#32, [.transportWrite 0xB4 0x20 [0x34, 0x12, 0x50] 100]) := by decide +kernel
/-- V-WR2. -/
theorem test_wr16_err : seen (exec (.wr16 .emiss 0x8000#16) (answered [] [.err] 0)) =
    some (some 0x00010000#32, [.transportWrite 0xB4 0x24 [0x00, 0x80, 0xA1] 100]) := by decide +kernel
/-- V-SL1. -/
theorem test_slp_good : seen (exec .slp (answered [] [.ok] 0)) =
    some (some 0x00000000#32, [.transportWrite 0xB4 0xFF [0xE8] 100]) := by decide +kernel
/-- V-SL2. -/
theorem test_slp_err : seen (exec .slp (answered [] [.err] 0)) =
    some (some 0x00010000#32, [.transportWrite 0xB4 0xFF [0xE8] 100]) := by decide +kernel
/-- V-EE6: path P6. -/
theorem test_wree_writes : seen (exec (.wree .emiss 0x8000#16) (answered [.ok [0xFF, 0xFF, 0xD6]] [.ok, .ok] 2)) =
    some (some 0x00000000#32,
      [.transportRead 0xB4 0x24 3 100, .transportWrite 0xB4 0x24 [0x00, 0x00, 0x28] 100, .delay 10,
       .transportWrite 0xB4 0x24 [0x00, 0x80, 0xA1] 100, .delay 10]) := by decide +kernel
/-- V-EE5: path P5, no delay after the failed write. -/
theorem test_wree_program_fails :
    seen (exec (.wree .emiss 0x8000#16) (answered [.ok [0xFF, 0xFF, 0xD6]] [.ok, .err] 2)) =
    some (some 0x00010000#32,
      [.transportRead 0xB4 0x24 3 100, .transportWrite 0xB4 0x24 [0x00, 0x00, 0x28] 100, .delay 10,
       .transportWrite 0xB4 0x24 [0x00, 0x80, 0xA1] 100]) := by decide +kernel

/-! ## Steps -/

/-- 95_test_vectors.md P5 step 1: a malformed `CFG.ADDR` is refused, not masked. -/
theorem test_step_malformed : (nextState (step (State.reset.withFetchWord 32 0x400000DB))).map
    (fun t => (t.addr, t.pending)) = some (0x5A#7, some 0x00030000#32) := by decide
/-- With no answer yet, the block waits in `RD_XFER` (10_state.md R24). -/
theorem test_step_waits : (nextState (step (State.reset.withFetchWord 32 0x80020000))).map
    (fun t => (t.phase, t.trace)) = some (.rdXfer, [.transportRead 0xB4 0x06 3 100]) := by decide
/-- A byte runs its row of the command-code table. -/
theorem test_step_cmd8 : (nextState (step (State.reset.withFetchWord 8 0x2E))).map
    (fun t => (t.codes, t.inbox)) = some ([0x2E#8], []) := by decide
/-- 95_test_vectors.md S5 and P3 request 2 against `MockDevice`: one read, no write. -/
theorem test_device_idempotent :
    (System.run 2 ⟨State.reset.withFetchWord 32 0xA0098000, ⟨[(0x24, 0x8000#16)], false⟩⟩).map
    (fun sys => (sys.block.pending, sys.block.trace.length, sys.device.regs)) =
    some (some 0x00000000#32, 2, [(0x24, 0x8000#16)]) := by decide +kernel
/-- 95_test_vectors.md P3 request 1 against `MockDevice`. -/
theorem test_device_wree_stores :
    (System.run 6 ⟨State.reset.withFetchWord 32 0xA0098000, ⟨[(0x24, 0xFFFF#16)], false⟩⟩).map
    (fun sys => (sys.block.pending, sys.device.regs)) =
    some (some 0x00000000#32, [(0x24, 0x8000#16)]) := by decide +kernel

/-! ## The host layer and the assembler -/

/-- 95_test_vectors.md section 2.11. -/
theorem test_rawToCelsius : rawToCelsius 0x3A34#16 = ⟨2485, 100⟩ := by decide
theorem test_emissivityToRaw :
    [⟨0, 1⟩, ⟨1, 1⟩, ⟨1, 2⟩, ⟨95, 100⟩, ⟨1, 131070⟩, ⟨3, 131070⟩].map emissivityToRaw =
    [0#16, 65535#16, 0x8000#16, 0xF332#16, 1#16, 2#16] := by decide
theorem test_celsiusToRaw :
    [⟨-40, 1⟩, ⟨0, 1⟩, ⟨2485, 100⟩, ⟨125, 1⟩].map celsiusToRaw = [11658, 13658, 14900, 19908] := by decide
theorem test_emissivity_nan_refused :
    (configureEmissivity ⟨0, 0⟩ State.reset).map (·.2) = some (.error .invalidArgument) := by decide
theorem test_readAmbient :
    (readAmbientTemperature (answered [.ok [0x34, 0x3A, 0x1B]] [] 0)).map (·.2) = some (.ok ⟨2485, 100⟩) := by decide +kernel
/-- 30_encoding.md R102. -/
theorem test_assemble_wree :
    assembleLine "WREE EMISS, 0x8000 ; erase and program".toList = .ok (some (.wree .emiss 0x8000#16)) := by decide
theorem test_assemble_too_wide : assembleLine "CFG.ADDR 128".toList = .error .immediateTooWide := by decide

/-! ## Witnesses: for each statement of Certificates/Slice0/Obligations.lean that has hypotheses, a state and operands that
meet all of them together -/

/-- A read answer for `RD16 EMISS` at 0x5A that passes the check: the value 0xFFFF (V-RD14). -/
def goodRead : ReadAnswer := .ok [0xFF, 0xFF, 0xD6]

/-- The block waiting in `RD_XFER`. -/
def waiting : State := { State.reset.callRead .rdXfer 0x06#8 with sel := some 2, cmd := some 0x06#8, codes := [0x06#8] }

/-- A next state with a property, from the evaluation of the outcome. -/
theorem next_of_check {r : Result} (p : State → Bool) (h : (nextState r).any p = true) : ∃ t, r = .next t ∧ p t = true := by
  cases r with
  | next t => exact ⟨t, rfl, by simpa [nextState] using h⟩
  | fault => simp [nextState] at h
  | refused => simp [nextState] at h

/-- A next state, from the evaluation of the outcome. -/
theorem next_of_isSome {r : Result} (h : (nextState r).isSome = true) : ∃ t, r = .next t := by
  cases r <;> simp [nextState] at h ⊢

/-- An ending, from the evaluation of the outcome. -/
theorem endsWith_of_check {i : Instr} {s : State} {st : Status}
    (h : (nextState (exec i s)).any (fun t => decide (t.phase = .idle ∧ t.pending.map responseStatus = some st)) = true) :
    EndsWith i s st := by
  obtain ⟨t, ht, hp⟩ := next_of_check _ h
  simp only [decide_eq_true_eq, Option.map_eq_some_iff] at hp
  obtain ⟨hi, rsp, hr, hs⟩ := hp
  exact ⟨t, rsp, ht, hi, hr, hs⟩

theorem witness_DecodeOfEncodeIsTheInstruction : Config.default.wellFormed = true := by decide
theorem witness_EachWordHasOneMeaning :
    decode Config.default (.req32 0xA009F332#32) = .ok (.wree .emiss 0xF332#16) ∧
    decode Config.default (.cmd8 0xFF#8) = .ok .cmdSleep := ⟨rfl, rfl⟩
theorem witness_MalformedWordsAreRefused :
    let s : State := { State.reset with inbox := [.req32 0x80120000#32] }
    s.Ready ∧ s.resetLine = false ∧ s.inbox = [.req32 0x80120000#32] ∧
      decodeRequest 0x80120000#32 = .error .reservedSelector :=
  ⟨by decide, rfl, rfl, rfl⟩
/-- `RefusesWord`, for any word: a ready block to which it is offered. -/
theorem witness_RefusesWord (w : Word) :
    let s := State.reset.withFetchWord 32 w.toNat
    s.Ready ∧ s.resetLine = false ∧ ∃ rest, s.inbox = offerOf 32 w.toNat :: rest :=
  ⟨⟨rfl, rfl, rfl, rfl, rfl, rfl, rfl, rfl, rfl⟩, rfl, _, rfl⟩
theorem witness_DefaultCommandCodes :
    Config.default.wellFormed = true ∧ decode Config.default (.cmd8 0x24#8) = .ok Selector.emiss.row ∧
      Config.default.code .emiss = 0x24#8 := ⟨by decide, rfl, rfl⟩
theorem witness_ValuesAreLittleEndian :
    (answered [goodRead] [] 0).reads = [.ok [0xFF, 0xFF, 0xD6]] ∧
    compute [saw 0x5A#7, Config.default.code .emiss, sar 0x5A#7, 0xFF, 0xFF] = 0xD6#8 := by decide +kernel
theorem witness_AssemblerNeverTruncates :
    (number "128".toList = some 128 ∧ 2 ^ 7 ≤ 128) ∧ (number "0x7F".toList = some 127 ∧ 127 < 2 ^ 7) := by decide
theorem witness_StepRunsTheDecodedInstruction :
    let s := State.reset.withFetchWord 32 0x80020000
    s.resetLine = false ∧ s.phase = .idle ∧ s.inbox = [.req32 0x80020000#32] ∧
      decode s.cfg (.req32 0x80020000#32) = .ok (.rd16 .ta) := ⟨rfl, rfl, rfl, rfl⟩
theorem witness_RequestsAreAcceptedOnlyInIdle :
    (State.reset.resetLine = false ∧ State.reset.phase = .idle ∧ State.reset.inbox = []) ∧
    (waiting.resetLine = false ∧ waiting.phase ≠ .idle ∧ ∃ t, step waiting = .next t) :=
  ⟨⟨rfl, rfl, rfl⟩, rfl, by decide, _, rfl⟩
theorem witness_ResetLeavesTheBlockReady :
    let s : State := { State.reset with resetLine := true, acc := 0x77#8 }
    s.phase = .idle ∧ s.resetLine = true := by decide
theorem witness_ResetMidRequestHasNoMeaning :
    let s : State := { waiting with resetLine := true }
    s.phase ≠ .idle ∧ s.resetLine = true := by decide
theorem witness_ChecksumIsLinear : ([0x01#8, 0x02#8] : List Byte).length = [0xFF#8, 0x00#8].length := rfl
theorem witness_OneChangedByteChangesTheChecksum : (0x34#8 : Byte) ≠ 0x35#8 := by decide
theorem witness_ClearSetsAccToZero : State.reset.Ready ∧ (0x10000001#32).extractLsb' 28 4 = 0x1#4 ∧
    (0x10000001#32 : Word) &&& 0xFFFFFFFF#32 ≠ 0x10000000#32 := by decide
theorem witness_UpdateAbsorbsOneByte : State.reset.Ready ∧ (0x20000100#32).extractLsb' 28 4 = 0x2#4 ∧
    (0x20000100#32 : Word) &&& 0xFFFFFF00#32 ≠ 0x20000000#32 := by decide
theorem witness_GetReadsAcc : State.reset.Ready ∧ (0x30010000#32).extractLsb' 28 4 = 0x3#4 ∧
    (0x30010000#32 : Word) &&& 0xFFFFFFFF#32 ≠ 0x30000000#32 := by decide
theorem witness_ConfigureSetsAddr : State.reset.Ready ∧ (0x40000080#32).extractLsb' 28 4 = 0x4#4 ∧
    (0x40000080#32 : Word) &&& 0xFFFFFF80#32 ≠ 0x40000000#32 := by decide
theorem witness_StreamingComputesTheChecksum :
    State.reset.acc = compute [] ∧ ∃ t, exec (.ckUpd 0x01#8) State.reset = .next t := ⟨rfl, _, rfl⟩
theorem witness_RegistersChangeOnlyByTheirRequests :
    (∃ t, step (State.reset.withFetchWord 32 0x4000005B) = .next t ∧ decide (t.addr ≠ State.reset.addr) = true) ∧
    (∃ t, step (State.reset.withFetchWord 32 0x20000001) = .next t ∧ decide (t.acc ≠ State.reset.acc) = true) :=
  ⟨next_of_check _ (by decide +kernel), next_of_check _ (by decide +kernel)⟩
theorem witness_TransactionsLeaveNoTraceOnAcc :
    Instr.wree .emiss 0x8000#16 ≠ .ckClr ∧ Instr.wree .emiss 0x8000#16 ≠ .ckGet ∧
      (∀ b, Instr.wree .emiss 0x8000#16 ≠ .ckUpd b) ∧
      ∃ t, exec (.wree .emiss 0x8000#16) (answered [goodRead] [.ok, .ok] 2) = .next t :=
  ⟨by decide, by decide, fun _ => by simp, next_of_isSome (by decide +kernel)⟩
theorem witness_ReadWordChecksTheFrame :
    let s (a : ReadAnswer) := answered [a] [] 0
    (∀ a, (s a).Ready) ∧
    ((s goodRead).reads = [.ok [0xFF, 0xFF, 0xD6]] ∧ compute [0xB4, 0x24, 0xB5, 0xFF, 0xFF] = 0xD6#8) ∧
    ((s (.ok [0xFF, 0xFF, 0xD7])).reads = [.ok [0xFF, 0xFF, 0xD7]] ∧
      compute [0xB4, 0x24, 0xB5, 0xFF, 0xFF] ≠ 0xD7#8) ∧
    ((s (.ok [])).reads = [.ok []] ∧ ([] : List Byte).length ≠ 3) ∧
    ((s (.ok [1, 2, 3, 4])).reads = [.ok [1, 2, 3, 4]] ∧ ([1, 2, 3, 4] : List Byte).length ≠ 3) ∧
    (s .err).reads = [.err] ∧
    (0x80020001#32).extractLsb' 28 4 = 0x8#4 ∧ (0x80020001#32 : Word) &&& 0xFFE0FFFF#32 ≠ 0x80000000#32 ∧
    18 ≤ ((0x80120000#32).extractLsb' 16 5).toNat :=
  ⟨fun _ => ⟨rfl, rfl, rfl, rfl, rfl, rfl, rfl, rfl, rfl⟩, by decide +kernel⟩
theorem witness_OneCorruptedByteFailsTheRead :
    (answered [.ok [0xFE, 0xFF, 0xD6]] [] 0).Ready ∧
    compute [saw 0x5A#7, Config.default.code .emiss, sar 0x5A#7, 0xFF, 0xFF] = 0xD6#8 ∧ (0xFE#8 : Byte) ≠ 0xFF#8 := by
  decide +kernel
theorem witness_WriteWordSendsTheFrame :
    (answered [] [.ok] 0).Ready ∧ (answered [] [.ok] 0).writes = [.ok] ∧ (answered [] [.err] 0).Ready ∧
    (answered [] [.err] 0).writes = [.err] ∧ (0x90290000#32).extractLsb' 28 4 = 0x9#4 ∧
    (0x90290000#32 : Word) &&& 0xFFE00000#32 ≠ 0x90000000#32 ∧ 18 ≤ ((0x901F0000#32).extractLsb' 16 5).toNat := by
  decide
theorem witness_SleepSendsOneChecksumByte :
    (answered [] [.ok] 0).Ready ∧ (answered [] [.ok] 0).writes = [.ok] ∧ (answered [] [.err] 0).writes = [.err] ∧
    (0xB0110000#32).extractLsb' 28 4 = 0xB#4 ∧ (0xB0110000#32 : Word) &&& 0xFFFFFFFF#32 ≠ 0xB0000000#32 := by decide
theorem witness_TransactionsWaitForTheirAnswer :
    State.reset.Ready ∧ State.reset.reads = [] ∧ State.reset.writes = [] := by decide
/-- Paths P1, P2, P3, P4, P5 and P6 of 43_persistent_writer.md R182, for `WREE EMISS, 0x8000` (section 2.10). -/
theorem witness_PersistentWritePaths :
    let s := answered
    (∀ r w d, (s r w d).Ready) ∧
    (s [.err] [] 0).reads = [.err] ∧ (s [.ok [0xFF]] [] 0).reads = [.ok [0xFF]] ∧
    compute [0xB4, 0x24, 0xB5, 0xFF, 0xFF] ≠ 0xD7#8 ∧
    (compute [0xB4, 0x24, 0xB5, 0x00, 0x80] = 0x7B#8 ∧ valueOfBytes 0x00 0x80 = 0x8000#16) ∧
    (compute [0xB4, 0x24, 0xB5, 0xFF, 0xFF] = 0xD6#8 ∧ valueOfBytes 0xFF 0xFF ≠ 0x8000#16) ∧
    (s [goodRead] [.err] 0).writes = [.err] ∧
    ((s [goodRead] [.ok, .err] 1).writes = [.ok, .err] ∧ (s [goodRead] [.ok, .err] 1).delays = 0 + 1) ∧
    ((s [goodRead] [.ok, .ok] 2).writes = [.ok, .ok] ∧ (s [goodRead] [.ok, .ok] 2).delays = 0 + 2) ∧
    (0xA0290000#32).extractLsb' 28 4 = 0xA#4 ∧ (0xA0290000#32 : Word) &&& 0xFFE00000#32 ≠ 0xA0000000#32 ∧
    18 ≤ ((0xA0120000#32).extractLsb' 16 5).toNat :=
  ⟨fun _ _ _ => ⟨rfl, rfl, rfl, rfl, rfl, rfl, rfl, rfl, rfl⟩, by decide +kernel⟩
theorem witness_NothingIsWrittenUnlessTheReadDiffers :
    (answered [goodRead] [.ok] 0).Ready ∧
    (∃ t, exec (.wree .emiss 0x8000#16) (answered [goodRead] [.ok] 0) = .next t ∧
      decide (Event.transportWrite 0xB4 0x24 [0x00, 0x00, 0x28] 100 ∈ t.trace) = true) ∧
    (∃ t, exec (.wree .emiss 0xFFFF#16) (answered [goodRead] [] 0) = .next t) ∧
    (∃ t, exec (.wree .emiss 0xFFFF#16) (answered [.ok [0xFF, 0xFF, 0xD7]] [] 0) = .next t) ∧
    (∃ t, exec (.wree .emiss 0xFFFF#16) (answered [.err] [] 0) = .next t) ∧
    compute [0xB4, 0x24, 0xB5, 0xFF, 0xFF] = 0xD6#8 ∧ valueOfBytes 0xFF 0xFF = 0xFFFF#16 :=
  ⟨by decide, next_of_check _ (by decide +kernel), next_of_isSome (by decide +kernel),
    next_of_isSome (by decide +kernel), next_of_isSome (by decide +kernel), by decide +kernel⟩
theorem witness_AnswersMayComeLater :
    (answered [goodRead] [] 0).resetLine = false ∧
    (∃ t, exec (.rd16 .emiss) (answered [goodRead] [] 0) = .next t ∧ decide (t.phase = .idle) = true) ∧
    (∃ t, exec (.wree .emiss 0x8000#16) (answered [goodRead] [] 0) = .next t ∧ decide (t.phase = .eeErase) = true) ∧
    (Instr.wree .emiss 0x8000#16).isRequest = true :=
  ⟨rfl, next_of_check _ (by decide +kernel), next_of_check _ (by decide +kernel), rfl⟩
theorem witness_CallsOfARequestAreBounded :
    ∃ t, exec (.wree .emiss 0x8000#16) (answered [goodRead] [.ok, .ok] 2) = .next t :=
  next_of_isSome (by decide +kernel)
theorem witness_OneResponseEndsEachRequest :
    (Instr.rd16 .emiss).isRequest = true ∧
    (∃ t, exec (.rd16 .emiss) (answered [goodRead] [] 0) = .next t ∧ decide (t.phase = .idle) = true) ∧
    (∃ t, exec (.rd16 .emiss) (answered [] [] 0) = .next t ∧ decide (t.phase ≠ .idle) = true) :=
  ⟨rfl, next_of_check _ (by decide +kernel), next_of_check _ (by decide +kernel)⟩
theorem witness_ErrorsLeaveTheRegisters :
    EndsWith (.rd16 .emiss) (answered [.ok [0xFF, 0xFF, 0xD7]] [] 0) .checksumError ∧
    EndsWith (.wree .emiss 0x8000#16) (answered [goodRead] [.ok, .err] 1) .transportError ∧
    (answered [.err] [] 0).Ready ∧ (Instr.rd16 .ta).isRequest = true ∧
    ∃ t, exec (.rd16 .ta) (answered [.err] [] 0) = .next t ∧ t.phase = .idle ∧ t.pending = some 0x00010000#32 ∧
      responseStatus 0x00010000#32 ≠ .ok :=
  ⟨endsWith_of_check (by decide +kernel), endsWith_of_check (by decide +kernel), by decide, rfl, _, rfl, rfl, rfl,
    by decide⟩
theorem witness_EndingsOfEachRequest :
    (Instr.slp.isRequest = true ∧ EndsWith .slp (answered [] [.err] 0) .transportError ∧
      Status.transportError ∈ Instr.slp.endings) ∧
    (∃ m, decodeRequest 0x50000000#32 = .error m) ∧ ((0x50000000#32).extractLsb' 28 4).toNat = 0x5 ∧
    (State.reset.withFetchWord 32 0x50000000).inbox = [.req32 0x50000000#32] ∧
    (State.reset.withFetchWord 32 0x50000000).phase = .idle ∧
    (State.reset.withFetchWord 32 0x50000000).resetLine = false :=
  ⟨⟨rfl, ⟨_, _, rfl, rfl, rfl, rfl⟩, by decide⟩, ⟨_, rfl⟩, rfl, rfl, rfl, rfl⟩
/-- A legal state in which the block waits, and one in which it is ready. -/
theorem witness_sound_states : waiting.Sound ∧ State.reset.Sound :=
  ⟨.inr ⟨rfl, .ta, rfl, rfl, rfl, ⟨rfl, rfl, rfl, rfl, rfl⟩, rfl⟩, .inl ⟨rfl, by decide⟩⟩
theorem witness_CallsCarryTheFixedOperands :
    waiting.Sound ∧ ∃ t, step { waiting with reads := [.err] } = .next t := ⟨witness_sound_states.1, _, rfl⟩
theorem witness_RequestsDependOnlyOnAddressAndAnswers :
    let s₁ := answered [goodRead] [] 0
    let s₂ := { answered [goodRead] [] 0 with acc := 0x77#8, pending := some 0x00030000#32 }
    (Instr.rd16 .emiss).isRequest = true ∧ s₁.cfg = s₂.cfg ∧ s₁.addr = s₂.addr ∧ s₁.reads = s₂.reads ∧
    s₁.writes = s₂.writes ∧ s₁.delays = s₂.delays ∧ ¬(Instr.rd16 .emiss = .ckGet ∨ ∃ b, Instr.rd16 .emiss = .ckUpd b) ∧
    ∃ t, exec (.rd16 .emiss) s₁ = .next t :=
  ⟨rfl, rfl, rfl, rfl, rfl, rfl, by simp, next_of_isSome (by decide +kernel)⟩
theorem witness_StepKeepsStatesSound : State.reset.Sound ∧ ∃ t, step State.reset = .next t :=
  ⟨witness_sound_states.2, _, rfl⟩
/-- A legal state that steps on, and one for each of the two refusals. -/
theorem witness_SoundStatesNeverFault :
    (waiting.Sound ∧ ∃ t, step waiting = .next t) ∧
    (let s : State := { waiting with resetLine := true }
     s.Sound ∧ step s = .refused .resetInProgress) ∧
    (let s := State.reset.withFetchWord 8 0x00
     s.Sound ∧ s.inbox = [.cmd8 0x00#8] ∧ (∀ sel : Selector, s.cfg.code sel ≠ 0x00#8) ∧
       step s = .refused .noCommandCode) :=
  ⟨⟨witness_sound_states.1, _, rfl⟩,
    ⟨.inr ⟨rfl, .ta, rfl, rfl, rfl, ⟨rfl, rfl, rfl, rfl, rfl⟩, rfl⟩, rfl⟩,
    .inl ⟨rfl, by decide⟩, rfl, fun sel => by cases sel <;> decide, rfl⟩
theorem witness_EmissivityRoundsToNearest : (Ratio.mk 1 2).inUnit = true := by decide
theorem witness_CelsiusRoundTripIsWithinOneCount :
    0 < (Ratio.mk (-40) 1).den ∧ 0 ≤ celsiusToRaw ⟨-40, 1⟩ ∧ celsiusToRaw ⟨-40, 1⟩ < 65536 := by decide
theorem witness_EmissivityIsCheckedBeforeSending :
    ((Ratio.mk 0 0).den = 0) ∧ (Ratio.mk (-1) 10).toRat < 0 ∧ 1 < (Ratio.mk 11 10).toRat ∧
    ((Ratio.mk 1 2).den ≠ 0 ∧ 0 ≤ (Ratio.mk 1 2).toRat ∧ (Ratio.mk 1 2).toRat ≤ 1 ∧
      ∃ t rsp, send (.wree .emiss (emissivityToRaw ⟨1, 2⟩)) (answered [.err] [] 0) = some (t, rsp)) := by
  refine ⟨rfl, ?_, ?_, by decide, ?_, ?_, _, _, rfl⟩ <;> norm_num [Ratio.toRat]
theorem witness_FailedReadsGiveNoTemperature :
    (answered [.err] [] 0).Ready ∧ (answered [.err] [] 0).resetLine = false ∧
    (answered [.err] [] 0).reads = [.err] := by decide
theorem witness_PersistentWriteReachesTheDevice :
    State.reset.Ready ∧ State.reset.resetLine = false ∧ State.reset.reads = [] ∧ State.reset.writes = [] ∧
    State.reset.delays = 0 ∧ (Device.mk [(0x24, 0xFFFF#16)] false).asleep = false ∧
    RegSpace.wf [(0x24, 0xFFFF#16)] = true := by decide
theorem witness_AfterSleepEveryTransactionFails :
    State.reset.Ready ∧ State.reset.resetLine = false ∧ State.reset.reads = [] ∧ State.reset.writes = [] ∧
    State.reset.delays = 0 ∧ (Device.mk [] false).asleep = false ∧ (Device.mk [] true).asleep = true := by decide

end Sys2Proof.Tests
end

/-! PROOFS. 20_memory.md: the operands of the calls at the ports (R52, R53, R54, R67). The calls made since a state are
followed through each operation of a request, with the two facts they rest on: `ADDR` and the parameters stay, and the
command latch `CMD` holds the code of a selector. -/

namespace Sys2Proof.Machine

/-! ## Calls with the fixed operands -/

/-- An event is a call with the operands that R52, R53, R54 and R67 fix for an address and a choice of the parameters,
or a response. -/
def Event.HasFixedOperands (cfg : Config) (addr : BusAddr) : Event → Prop
  | .transportRead a r n time => a = saw addr ∧ n = 3 ∧ time = cfg.timeout ∧ ∃ sel : Selector, r = cfg.code sel
  | .transportWrite a r payload time =>
    a = saw addr ∧ time = cfg.timeout ∧ (payload.length = 3 ∨ payload.length = 1) ∧ ∃ sel : Selector, r = cfg.code sel
  | .delay n => n = 10
  | .response _ => True

/-- Between two states only responses and calls with the fixed operands of the first are seen. -/
def State.FixedCalls (s t : State) : Prop :=
  ∃ new : List Event, t.trace = s.trace ++ new ∧ ∀ e ∈ new, e.HasFixedOperands s.cfg s.addr

theorem State.fixedCalls_of_trace_eq {s t : State} (h : t.trace = s.trace) : s.FixedCalls t :=
  ⟨[], by simpa using h, by simp⟩

theorem State.FixedCalls.append {s u t : State} {e : Event} (h : s.FixedCalls u) (ht : t.trace = u.trace ++ [e])
    (he : e.HasFixedOperands s.cfg s.addr) : s.FixedCalls t := by
  obtain ⟨new, hu, hnew⟩ := h
  refine ⟨new ++ [e], by rw [ht, hu, List.append_assoc], ?_⟩
  simpa [or_imp, forall_and] using ⟨hnew, he⟩

/-- Responding makes no call, whatever registers were written before. -/
theorem State.fixedCalls_respond {s u : State} (h : u.trace = s.trace) (v : RegValue) : s.FixedCalls (u.respond v) :=
  (State.fixedCalls_of_trace_eq h).append rfl trivial

/-- A request that began in `s` has come to `u`: its calls so far have the fixed operands, and so will its next ones, for
`ADDR` and the parameters are those of `s` and `CMD` can only hold the code of a selector. -/
structure State.RequestFrom (s u : State) : Prop where
  cfg : u.cfg = s.cfg
  addr : u.addr = s.addr
  cmd : ∀ c, u.cmd = some c → ∃ sel : Selector, c = u.cfg.code sel
  calls : s.FixedCalls u

/-! ## Each operation of a request -/

namespace State.RequestFrom

variable {s u t : State}

/-- What puts one more event out, with the fixed operands, and keeps or empties `CMD`. -/
theorem emit {e : Event} (h : s.RequestFrom u) (hcfg : t.cfg = u.cfg) (haddr : t.addr = u.addr)
    (hcmd : t.cmd = u.cmd ∨ t.cmd = none) (htrace : t.trace = u.trace ++ [e])
    (he : e.HasFixedOperands u.cfg u.addr) : s.RequestFrom t where
  cfg := hcfg.trans h.cfg
  addr := haddr.trans h.addr
  cmd c hc := by
    obtain hk | hn := hcmd
    · exact hcfg ▸ h.cmd c (hk ▸ hc)
    · simp [hn] at hc
  calls := h.calls.append htrace (h.cfg ▸ h.addr ▸ he)

theorem finish (h : s.RequestFrom u) (st : Status) (v : RegValue) : s.RequestFrom (u.finish st v) :=
  h.emit rfl rfl (.inr rfl) rfl trivial

theorem accept (s : State) (sel : Selector) (v : Option RegValue) : s.RequestFrom (s.accept sel v) where
  cfg := rfl
  addr := rfl
  cmd _ hc := ⟨sel, (Option.some.inj hc).symm⟩
  calls := fixedCalls_of_trace_eq rfl

theorem callRead (h : s.RequestFrom u) (p : Phase) (sel : Selector) :
    s.RequestFrom (u.callRead p (u.cfg.code sel)) :=
  h.emit rfl rfl (.inl rfl) rfl ⟨rfl, rfl, rfl, sel, rfl⟩

theorem sendWord (h : s.RequestFrom u) (p : Phase) (sel : Selector) (v : RegValue) :
    s.RequestFrom (u.sendWord p (u.cfg.code sel) v) :=
  h.emit rfl rfl (.inl rfl) rfl ⟨rfl, rfl, .inl rfl, sel, rfl⟩

theorem sendSleep (h : s.RequestFrom u) (p : Phase) (sel : Selector) :
    s.RequestFrom (u.sendSleep p (u.cfg.code sel)) :=
  h.emit rfl rfl (.inl rfl) rfl ⟨rfl, rfl, .inr rfl, sel, rfl⟩

theorem callDelay (h : s.RequestFrom u) (p : Phase) : s.RequestFrom (u.callDelay p) :=
  h.emit rfl rfl (.inl rfl) rfl rfl

/-- Only the fields that `RequestFrom` speaks of matter; the answers taken and the data latches do not. -/
theorem congr (h : s.RequestFrom u) (hcfg : t.cfg = u.cfg) (haddr : t.addr = u.addr) (hcmd : t.cmd = u.cmd)
    (htrace : t.trace = u.trace) : s.RequestFrom t where
  cfg := hcfg.trans h.cfg
  addr := haddr.trans h.addr
  cmd c hc := hcfg ▸ h.cmd c (hcmd ▸ hc)
  calls := by simpa only [FixedCalls, htrace] using h.calls

theorem takeRead (h : s.RequestFrom u) (rest : List ReadAnswer) : s.RequestFrom { u with reads := rest } :=
  h.congr rfl rfl rfl rfl

theorem takeWrite (h : s.RequestFrom u) (rest : List WriteAnswer) : s.RequestFrom { u with writes := rest } :=
  h.congr rfl rfl rfl rfl

theorem takeDelay (h : s.RequestFrom u) (n : Nat) : s.RequestFrom { u with delays := n } :=
  h.congr rfl rfl rfl rfl

theorem receive (h : s.RequestFrom u) (answer : ReadAnswer) (cmd : Byte) {goOn : RegValue → State → State}
    (hgo : ∀ v x, x.cfg = u.cfg → s.RequestFrom x → s.RequestFrom (goOn v x)) :
    s.RequestFrom (u.receive answer cmd goOn) := by
  obtain ⟨_, _, _, -, -, hr⟩ | ⟨_, _, _, -, -, hr⟩ | ⟨-, hr⟩ := u.receive_cases answer cmd goOn <;> rw [hr]
  · exact hgo _ _ rfl (h.congr rfl rfl rfl rfl)
  · exact h.finish _ _
  · exact h.finish _ _

theorem acknowledge (h : s.RequestFrom u) (answer : WriteAnswer) {goOn : State → State}
    (hgo : s.RequestFrom (goOn u)) : s.RequestFrom (u.acknowledge answer goOn) := by
  cases answer with
  | ok => exact hgo
  | err => exact h.finish _ _

/-! ## The sequencer -/

/-- The erasing and the programming write take their command code from the latch; every other answer leads to a
response, or to a delay. -/
theorem resume (h : s.RequestFrom u) (ht : u.resume = .next t) : s.RequestFrom t := by
  obtain rfl | ⟨a, rest, c, -, -, -, rfl⟩ | ⟨a, rest, -, -, rfl⟩ | ⟨a, rest, c, v, -, -, hc, -, rfl⟩ |
    ⟨a, rest, -, -, rfl⟩ | ⟨n, c, v, -, -, hc, -, rfl⟩ | ⟨a, rest, -, -, rfl⟩ | ⟨n, -, -, rfl⟩ :=
      State.resume_cases ht
  · exact h
  · exact (h.takeRead rest).receive a c fun _ _ _ hx => hx.finish _ _
  · exact (h.takeWrite rest).acknowledge a ((h.takeWrite rest).finish _ _)
  · obtain ⟨sel, rfl⟩ := h.cmd c hc
    refine (h.takeRead rest).receive a _ fun cur x hcfg hx => ?_
    split
    · exact hx.finish _ _
    · exact hcfg ▸ hx.sendWord _ sel _
  · exact (h.takeWrite rest).acknowledge a ((h.takeWrite rest).callDelay _)
  · obtain ⟨sel, rfl⟩ := h.cmd c hc
    exact (h.takeDelay n).sendWord _ sel _
  · exact (h.takeWrite rest).acknowledge a ((h.takeWrite rest).callDelay _)
  · exact (h.takeDelay n).finish _ _

theorem drive (h : s.RequestFrom u) (ht : u.drive = .next t) : s.RequestFrom t :=
  State.resumeUpTo_induct (fun _ _ hx hy => hx.resume hy) h ht

theorem started {i : Instr} (h : s.started i = some u) : s.RequestFrom u := by
  cases i <;> simp only [State.started, Option.some.injEq, reduceCtorEq] at h <;> subst h
  case rd16 sel => exact (accept s sel none).callRead _ sel
  case wr16 sel v => exact (accept s sel (some v)).sendWord _ sel v
  case wree sel v => exact (accept s sel (some v)).callRead _ sel
  case slp => exact (accept s .sleep none).sendSleep _ .sleep

end State.RequestFrom

/-! ## Instructions and steps -/

theorem exec_fixedCalls {i : Instr} {s t : State} (h : exec i s = .next t) : s.FixedCalls t := by
  obtain ⟨_, -, he⟩ | ⟨-, he⟩ | ⟨_, -, he⟩ | ⟨-, he⟩ | ⟨_, -, he⟩ | ⟨u, -, hu, he⟩ := exec_cases i s <;>
    rw [he] at h
  case inr.inr.inr.inr.inr => exact ((State.RequestFrom.started hu).drive h).calls
  all_goals obtain rfl := Host.Outcome.next.inj h
  case inl => exact State.fixedCalls_of_trace_eq rfl
  all_goals exact State.fixedCalls_respond (by rfl) _

/-- In a legal state `CMD` holds the code of a selector, if anything. -/
theorem State.Sound.cmd_code {s : State} (h : s.Sound) {c : Byte} (hc : s.cmd = some c) :
    ∃ sel : Selector, c = s.cfg.code sel := by
  obtain ⟨-, -, hnone, -⟩ | ⟨-, sel, -, hcmd, -⟩ := h
  · simp [hnone] at hc
  · exact ⟨sel, Option.some.inj (hc.symm.trans hcmd)⟩

theorem step_fixedCalls {s t : State} (hs : s.Sound) (h : step s = .next t) : s.FixedCalls t := by
  obtain ⟨-, -, rfl⟩ | ⟨-, -, -, rfl⟩ | ⟨_, rest, i, -, -, -, -, he⟩ | ⟨_, rest, _, -, -, -, -, -, rfl⟩ |
    ⟨-, -, hd⟩ := step_cases h
  · exact State.fixedCalls_of_trace_eq rfl
  · exact State.fixedCalls_of_trace_eq rfl
  · have run : State.FixedCalls { s with inbox := rest } t := exec_fixedCalls he
    exact run
  · exact (State.fixedCalls_of_trace_eq (t := { s with inbox := rest }) rfl).append rfl trivial
  · have start : s.RequestFrom s := ⟨rfl, rfl, fun _ => hs.cmd_code, State.fixedCalls_of_trace_eq rfl⟩
    exact (start.drive hd).calls

/-- Settles O43: a call is made where a transaction starts, with the code of its selector, or where the sequencer goes
on, with the code latched in `CMD`; `State.RequestFrom` holds along the way. -/
theorem callsCarryTheFixedOperands : Obligations.CallsCarryTheFixedOperands := by
  refine ⟨rfl, fun s t hs h => ?_⟩
  obtain ⟨new, htrace, hnew⟩ := step_fixedCalls hs h
  exact ⟨new, htrace, fun e he => hnew e he⟩

end Sys2Proof.Machine

/-! PROOFS. 30_encoding.md: which request words spell which row (R80, R81, R84), which are malformed, and what the block
answers to those (R85). A word is taken apart into its four fields once, and the decoder is described on the fields. -/

namespace Sys2Proof

/-! ## A word and its fields -/

/-- Two words of `w + len` bits are equal exactly when their upper and their lower bits are. -/
theorem eq_iff_extractLsb'_eq {w len : Nat} {x y : BitVec (w + len)} :
    x = y ↔ x.extractLsb' len w = y.extractLsb' len w ∧ x.extractLsb' 0 len = y.extractLsb' 0 len := by
  constructor
  · rintro rfl
    exact ⟨rfl, rfl⟩
  · rintro ⟨hi, lo⟩
    rw [← BitVec.extractLsb'_append_extractLsb' (x := x), hi, lo, BitVec.extractLsb'_append_extractLsb']

@[simp] theorem Fields.toWord_ofWord (w : Word) : (Fields.ofWord w).toWord = w := by
  unfold Fields.toWord Fields.ofWord
  rw [BitVec.extractLsb'_append_extractLsb'_eq_extractLsb' (start₁ := 21) (len₁ := 7) rfl,
    BitVec.extractLsb'_append_extractLsb'_eq_extractLsb' (start₁ := 16) (len₁ := 5) rfl,
    BitVec.extractLsb'_append_extractLsb' (len := 16)]

/-- A word matches a pattern under a mask exactly when each of its fields does. -/
theorem and_mask_eq_iff_fields (w mask pattern : Word) :
    w &&& mask = pattern ↔
      (Fields.ofWord w).op &&& (Fields.ofWord mask).op = (Fields.ofWord pattern).op ∧
      (Fields.ofWord w).mbz &&& (Fields.ofWord mask).mbz = (Fields.ofWord pattern).mbz ∧
      (Fields.ofWord w).sel &&& (Fields.ofWord mask).sel = (Fields.ofWord pattern).sel ∧
      (Fields.ofWord w).imm &&& (Fields.ofWord mask).imm = (Fields.ofWord pattern).imm := by
  rw [← (Function.LeftInverse.injective Fields.toWord_ofWord).eq_iff]
  simp only [Fields.ofWord, BitVec.extractLsb'_and, Fields.mk.injEq]

theorem and_full_mask {w : Nat} {x mask : BitVec w} (h : mask = BitVec.allOnes w) : x &&& mask = x :=
  h ▸ BitVec.and_allOnes

/-- How a row's mask asks for the upper bits of an immediate to be zero (R81, R84). -/
theorem and_upper_mask_eq_zero_iff {w len : Nat} {x mask : BitVec (w + len)}
    (upper : mask.extractLsb' len w = BitVec.allOnes w) (lower : mask.extractLsb' 0 len = 0#len) :
    x &&& mask = 0#(w + len) ↔ x.extractLsb' len w = 0#w := by
  rw [eq_iff_extractLsb'_eq, BitVec.extractLsb'_and, BitVec.extractLsb'_and, upper, lower]
  simp

/-! ## The selector field -/

theorem Selector.ofNumber_eq_some_iff {n : BitVec 5} {sel : Selector} :
    Selector.ofNumber n = some sel ↔ sel.number = n := by
  revert n
  cases sel <;> decide

theorem Selector.ofNumber_eq_none_iff {n : BitVec 5} : Selector.ofNumber n = none ↔ 18 ≤ n.toNat :=
  List.getElem?_eq_none_iff

/-- The numbers 0 to 17 are those of the selectors (R99). -/
theorem Selector.exists_number_eq_iff {n : BitVec 5} : (∃ sel : Selector, sel.number = n) ↔ n.toNat ≤ 17 := by
  rw [← Nat.lt_succ_iff, ← Nat.not_le, ← Selector.ofNumber_eq_none_iff, ← ne_eq, Option.ne_none_iff_exists']
  simp only [Selector.ofNumber_eq_some_iff]

/-- A selector field of at most 17 is the number of a selector, which the rest of a condition may then speak of. -/
theorem Selector.and_le_iff_exists {n : BitVec 5} {p : Prop} {q : Selector → Prop}
    (h : ∀ sel : Selector, sel.number = n → (p ↔ q sel)) :
    p ∧ n.toNat ≤ 17 ↔ ∃ sel : Selector, sel.number = n ∧ q sel := by
  rw [← Selector.exists_number_eq_iff]
  constructor
  · rintro ⟨hp, sel, hsel⟩
    exact ⟨sel, hsel, (h sel hsel).mp hp⟩
  · rintro ⟨sel, hsel, hq⟩
    exact ⟨(h sel hsel).mpr hq, sel, hsel⟩

/-! ## What the decoder accepts -/

/-- The fields spell an instruction: the opcode of its row (R84), its operands where R81 puts them, zero elsewhere. -/
def Fields.Spells (f : Fields) : Instr → Prop
  | .ckClr => f.op = 0x1 ∧ f.mbz = 0 ∧ f.sel = 0 ∧ f.imm = 0
  | .ckUpd b => f.op = 0x2 ∧ f.mbz = 0 ∧ f.sel = 0 ∧ f.imm.extractLsb' 8 8 = 0 ∧ f.imm.extractLsb' 0 8 = b
  | .ckGet => f.op = 0x3 ∧ f.mbz = 0 ∧ f.sel = 0 ∧ f.imm = 0
  | .cfgAddr a7 => f.op = 0x4 ∧ f.mbz = 0 ∧ f.sel = 0 ∧ f.imm.extractLsb' 7 9 = 0 ∧ f.imm.extractLsb' 0 7 = a7
  | .rd16 sel => f.op = 0x8 ∧ f.mbz = 0 ∧ sel.number = f.sel ∧ f.imm = 0
  | .wr16 sel v => f.op = 0x9 ∧ f.mbz = 0 ∧ sel.number = f.sel ∧ f.imm = v
  | .wree sel v => f.op = 0xA ∧ f.mbz = 0 ∧ sel.number = f.sel ∧ f.imm = v
  | .slp => f.op = 0xB ∧ f.mbz = 0 ∧ f.sel = 0 ∧ f.imm = 0
  | .cmdRawir1 | .cmdRawir2 | .cmdTa | .cmdTobj1 | .cmdTobj2 | .cmdTomax | .cmdTomin | .cmdPwmctrl | .cmdTarange
  | .cmdEmiss | .cmdConfig1 | .cmdSmbaddr | .cmdId1 | .cmdId2 | .cmdId3 | .cmdId4 | .cmdFlags | .cmdSleep => False

theorem Fields.decodeBare_eq_ok_iff {f : Fields} {i j : Instr} :
    f.decodeBare i = .ok j ↔ f.sel = 0 ∧ f.imm = 0 ∧ i = j := by
  unfold Fields.decodeBare
  split_ifs <;> simp_all

theorem Fields.decodeSelector_eq_ok_iff {f : Fields} {k : Selector → Except Malformed Instr} {i : Instr} :
    f.decodeSelector k = .ok i ↔ ∃ sel : Selector, sel.number = f.sel ∧ k sel = .ok i := by
  simp only [← Selector.ofNumber_eq_some_iff]
  unfold Fields.decodeSelector
  split <;> simp_all

theorem Fields.spells_of_decode {f : Fields} {i : Instr} (h : f.decode = .ok i) : f.Spells i := by
  unfold Fields.decode at h
  by_cases hmbz : f.mbz = 0
  case neg => exact absurd ((if_pos hmbz).symm.trans h) (by simp)
  rw [if_neg (not_not.mpr hmbz)] at h
  split at h
  case h_1 hop | h_3 hop | h_8 hop =>
    obtain ⟨hsel, himm, rfl⟩ := Fields.decodeBare_eq_ok_iff.mp h
    exact ⟨BitVec.eq_of_toNat_eq hop, hmbz, hsel, himm⟩
  case h_2 hop | h_4 hop =>
    split_ifs at h with hsel himm
    obtain rfl := Except.ok.inj h
    exact ⟨BitVec.eq_of_toNat_eq hop, hmbz, not_not.mp hsel, not_not.mp himm, rfl⟩
  case h_5 hop =>
    obtain ⟨sel, hsel, h⟩ := Fields.decodeSelector_eq_ok_iff.mp h
    split_ifs at h with himm
    obtain rfl := Except.ok.inj h
    exact ⟨BitVec.eq_of_toNat_eq hop, hmbz, hsel, not_not.mp himm⟩
  case h_6 hop | h_7 hop =>
    obtain ⟨sel, hsel, h⟩ := Fields.decodeSelector_eq_ok_iff.mp h
    obtain rfl := Except.ok.inj h
    exact ⟨BitVec.eq_of_toNat_eq hop, hmbz, hsel, rfl⟩
  case h_9 => cases h

theorem Fields.decode_of_spells {f : Fields} {i : Instr} (h : f.Spells i) : f.decode = .ok i := by
  cases i
  case ckClr | ckGet | slp =>
    obtain ⟨hop, hmbz, hsel, himm⟩ := h
    simp [Fields.decode, hop, hmbz, Fields.decodeBare_eq_ok_iff, hsel, himm]
  case ckUpd | cfgAddr =>
    obtain ⟨hop, hmbz, hsel, himm, rfl⟩ := h
    simp [Fields.decode, hop, hmbz, hsel, himm]
  case rd16 | wr16 | wree =>
    obtain ⟨hop, hmbz, hsel, himm⟩ := h
    simp [Fields.decode, hop, hmbz, Fields.decodeSelector_eq_ok_iff, ← hsel, himm]
  all_goals exact h.elim

/-- The decoder of a request word accepts exactly the words whose fields spell an instruction (R81, R84). -/
theorem decodeRequest_eq_ok_iff {w : Word} {i : Instr} : decodeRequest w = .ok i ↔ (Fields.ofWord w).Spells i :=
  ⟨Fields.spells_of_decode, Fields.decode_of_spells⟩

/-! ## What the decoder rejects -/

/-- The upper bits of a value are zero exactly when its lower bits hold it. -/
theorem extractLsb'_upper_eq_zero_iff {w len : Nat} {x : BitVec (w + len)} :
    x.extractLsb' len w = 0#w ↔ x.toNat < 2 ^ len := by
  have bound : x.toNat / 2 ^ len < 2 ^ w := Nat.div_lt_of_lt_mul (pow_add 2 len w ▸ add_comm w len ▸ x.isLt)
  rw [← BitVec.toNat_inj, BitVec.extractLsb'_toNat, Nat.shiftRight_eq_div_pow, Nat.mod_eq_of_lt bound,
    BitVec.toNat_zero, Nat.div_eq_zero_iff_lt (Nat.two_pow_pos len)]

/-- The checks of the model, clause by clause as R85 lists them. -/
theorem Fields.malformed_iff {f : Fields} :
    f.malformed = true ↔
      f.op.toNat ∈ [0x0, 0x5, 0x6, 0x7, 0xC, 0xD, 0xE, 0xF] ∨
      f.mbz ≠ 0 ∨
      (f.op.toNat ∈ [0x1, 0x2, 0x3, 0x4, 0xB] ∧ f.sel ≠ 0) ∨
      (f.op.toNat ∈ [0x8, 0x9, 0xA] ∧ 18 ≤ f.sel.toNat) ∨
      (f.op.toNat ∈ [0x1, 0x3, 0x8, 0xB] ∧ f.imm ≠ 0) ∨
      (f.op.toNat = 0x2 ∧ f.imm.extractLsb' 8 8 ≠ 0) ∨
      (f.op.toNat = 0x4 ∧ f.imm.extractLsb' 7 9 ≠ 0) := by
  have byte : 2 ^ 8 ≤ f.imm.toNat ↔ f.imm.extractLsb' 8 8 ≠ 0 :=
    Nat.not_lt.symm.trans (extractLsb'_upper_eq_zero_iff (w := 8) (len := 8)).not.symm
  have address : 2 ^ 7 ≤ f.imm.toNat ↔ f.imm.extractLsb' 7 9 ≠ 0 :=
    Nat.not_lt.symm.trans (extractLsb'_upper_eq_zero_iff (w := 9) (len := 7)).not.symm
  simp only [Fields.malformed, Fields.opReserved, Fields.mbzSet, Fields.selUnused, Fields.selReserved,
    Fields.immUnused, Bool.or_eq_true, Bool.and_eq_true, List.contains_iff_mem, bne_iff_ne, decide_eq_true_eq,
    beq_iff_eq, or_assoc, byte, address]

theorem exists_ite_eq_error_iff {α : Type} {c : Prop} [Decidable c] {m : Malformed} {x : Except Malformed α} :
    (∃ m', (if c then .error m else x) = .error m') ↔ c ∨ ∃ m', x = .error m' := by
  split_ifs with h <;> simp [h]

theorem exists_ok_eq_error_iff {α : Type} {a : α} : (∃ m : Malformed, Except.ok a = .error m) ↔ False := by
  simp

theorem Fields.decodeBare_eq_error_iff {f : Fields} {i : Instr} :
    (∃ m, f.decodeBare i = .error m) ↔ f.sel ≠ 0 ∨ f.imm ≠ 0 := by
  simp only [Fields.decodeBare, exists_ite_eq_error_iff, exists_ok_eq_error_iff, or_false]

/-- For a request whose selector, once it is one of the 18, has no part in whether the rest is rejected. -/
theorem Fields.decodeSelector_eq_error_iff {f : Fields} {k : Selector → Except Malformed Instr} {p : Prop}
    (hk : ∀ sel, (∃ m, k sel = .error m) ↔ p) :
    (∃ m, f.decodeSelector k = .error m) ↔ 18 ≤ f.sel.toNat ∨ p := by
  rw [← Selector.ofNumber_eq_none_iff]
  unfold Fields.decodeSelector
  split <;> simp_all

/-- The decoder rejects exactly the fields that the clauses of R85 call malformed. -/
theorem Fields.decode_eq_error_iff_malformed {f : Fields} : (∃ m, f.decode = .error m) ↔ f.malformed = true := by
  rw [Fields.malformed_iff]
  unfold Fields.decode
  rw [exists_ite_eq_error_iff]
  by_cases hmbz : f.mbz ≠ 0
  case pos => exact iff_of_true (.inl hmbz) (.inr (.inl hmbz))
  split
  case h_1 hop | h_3 hop | h_8 hop =>
    rw [Fields.decodeBare_eq_error_iff]
    simp [hop]
  case h_2 hop | h_4 hop =>
    rw [exists_ite_eq_error_iff, exists_ite_eq_error_iff, exists_ok_eq_error_iff]
    simp [hop]
  case h_5 hop =>
    rw [Fields.decodeSelector_eq_error_iff (p := f.imm ≠ 0) fun _ => by
      rw [exists_ite_eq_error_iff, exists_ok_eq_error_iff, or_false]]
    simp [hop]
  case h_6 hop | h_7 hop =>
    rw [Fields.decodeSelector_eq_error_iff fun _ => exists_ok_eq_error_iff]
    simp [hop]
  case h_9 =>
    have reserved : f.op.toNat ∈ [0x0, 0x5, 0x6, 0x7, 0xC, 0xD, 0xE, 0xF] := by
      have bound := f.op.isLt
      simp only [imp_false, List.mem_cons, List.not_mem_nil, or_false] at *
      omega
    exact iff_of_true (.inr ⟨_, rfl⟩) (.inl reserved)

end Sys2Proof

namespace Sys2Proof.Machine

/-- Settles O3: on the fields of the word, its match under the mask of a row is what the decoder asks of that row. -/
theorem wordSpellsItsRow : Obligations.WordSpellsItsRow := by
  refine ⟨fun w => ?ckClr, fun w => ?ckUpd, fun w => ?ckGet, fun w => ?cfgAddr,
    fun w => Selector.and_le_iff_exists fun sel hsel => ?rd16,
    fun w => Selector.and_le_iff_exists fun sel hsel => ?wr16,
    fun w => Selector.and_le_iff_exists fun sel hsel => ?wree, fun w => ?slp⟩
  all_goals rw [and_mask_eq_iff_fields, decodeRequest_eq_ok_iff]
  case ckClr | ckGet | slp => simp (disch := decide) [Fields.Spells, Fields.ofWord, and_full_mask]
  case ckUpd =>
    have imm := and_upper_mask_eq_zero_iff (w := 8) (len := 8) (x := w.extractLsb' 0 16) (mask := 0xFF00#16) rfl rfl
    simp (disch := decide) [Fields.Spells, Fields.ofWord, and_full_mask, imm]
  case cfgAddr =>
    have imm := and_upper_mask_eq_zero_iff (w := 9) (len := 7) (x := w.extractLsb' 0 16) (mask := 0xFF80#16) rfl rfl
    simp (disch := decide) [Fields.Spells, Fields.ofWord, and_full_mask, imm]
  case rd16 | wr16 | wree => simp (disch := decide) [Fields.Spells, Fields.ofWord, and_full_mask, hsel]

/-! ## The answer to a malformed word -/

theorem State.clearLatches_of_latchesEmpty {s : State} (h : s.latchesEmpty) : s.clearLatches = s := by
  cases s
  dsimp only [State.latchesEmpty] at h
  obtain ⟨rfl, rfl, rfl, rfl, rfl, rfl, rfl, rfl⟩ := h
  rfl

/-- An exception taken in a ready state leaves nothing but its response. -/
theorem State.raise_of_ready {s : State} (h : s.Ready) (kind : Status) :
    s.raise kind = { s with
      pending := some (responseWord kind 0x0000#16)
      trace := s.trace ++ [.response (responseWord kind 0x0000#16)] } := by
  obtain ⟨hphase, hlatches⟩ := h
  rw [State.raise, State.finish, State.clearLatches_of_latchesEmpty hlatches, ← hphase]

theorem State.refuseOffer_eq_raise {m : Malformed} (h : m ≠ .noCommandCode) (s : State) :
    s.refuseOffer m = .next (s.raise .invalidRequest) := by
  cases m
  case noCommandCode => exact absurd rfl h
  all_goals rfl

theorem step_eq_refuseOffer {s : State} {o : Offer} {rest : List Offer} {m : Malformed} (hr : s.resetLine = false)
    (hp : s.phase = .idle) (hi : s.inbox = o :: rest) (hd : decode s.cfg o = .error m) :
    step s = { s with inbox := rest }.refuseOffer m := by
  simp [step, hr, hp, hi, hd]

theorem refusesWord_of_malformed {w : Word} {m : Malformed} (h : decodeRequest w = .error m) : RefusesWord w := by
  intro s rest hready hr hi
  obtain ⟨-, -, invalidRequest⟩ := responseWord_errors
  rw [step_eq_refuseOffer hr hready.1 hi h, State.refuseOffer_eq_raise (decodeRequest_malformed h),
    State.raise_of_ready (s := { s with inbox := rest }) hready, invalidRequest]

/-- Settles O4: the decoder rejects what the clauses of R85 say, and a step in a ready state turns the rejection into
the one response. -/
theorem malformedWordsAreRefused : Obligations.MalformedWordsAreRefused := by
  refine ⟨fun w => ?_, fun _ _ h => refusesWord_of_malformed h, ⟨.reservedOpcode, rfl⟩, ⟨.mbzNotZero, rfl⟩⟩
  have byte : w.extractLsb' 8 8 = (Fields.ofWord w).imm.extractLsb' 8 8 :=
    (BitVec.extractLsb'_extractLsb'_of_le (by decide)).symm
  have address : w.extractLsb' 7 9 = (Fields.ofWord w).imm.extractLsb' 7 9 :=
    (BitVec.extractLsb'_extractLsb'_of_le (by decide)).symm
  rw [byte, address]
  exact Fields.decode_eq_error_iff_malformed.trans Fields.malformed_iff

end Sys2Proof.Machine

/-! PROOFS. 40_checksum_engine.md: the checksum function (R120, R121) and the three requests of the streaming generator
(R122, R123, R124). Each request is answered in one step by a response in a ready state; that every other word with its
opcode is refused follows from the words that spell its row. -/

namespace Sys2Proof

/-! ## The one row of an opcode -/

theorem Fields.Spells.eq_ckClr {f : Fields} {i : Instr} (h : f.Spells i) (hop : f.op = 0x1) : i = .ckClr := by
  cases i
  case ckClr => rfl
  all_goals simp [Fields.Spells, hop] at h

theorem Fields.Spells.eq_ckUpd {f : Fields} {i : Instr} (h : f.Spells i) (hop : f.op = 0x2) :
    i = .ckUpd (f.imm.extractLsb' 0 8) := by
  cases i
  case ckUpd b =>
    obtain ⟨-, -, -, -, rfl⟩ := h
    rfl
  all_goals simp [Fields.Spells, hop] at h

theorem Fields.Spells.eq_ckGet {f : Fields} {i : Instr} (h : f.Spells i) (hop : f.op = 0x3) : i = .ckGet := by
  cases i
  case ckGet => rfl
  all_goals simp [Fields.Spells, hop] at h

end Sys2Proof

namespace Sys2Proof.Machine

/-! ## The checksum function -/

/-- A round as R120 writes it: bit 7 is the high bit. -/
theorem ck8Round_eq (a : Byte) : ck8Round a = if a.getLsbD 7 then (a <<< 1) ^^^ 0x07#8 else a <<< 1 := by
  rw [ck8Round, BitVec.msb_eq_getLsbD_last, Config.poly]

/-- Settles O13: the rounds of the model are those of R120, and a shift brings in a zero. -/
theorem checksumStepIsEightRounds : Obligations.ChecksumStepIsEightRounds := by
  intro acc b r
  have rounds : ck8Round = r := funext ck8Round_eq
  exact ⟨rounds ▸ rfl, fun a => by simp⟩

/-- Absorbing in two pieces is absorbing in one (R121). -/
theorem absorb_append (acc : Byte) (s t : List Byte) : absorb acc (s ++ t) = absorb (absorb acc s) t :=
  List.foldl_append

/-- The last byte is absorbed last, into the checksum of the bytes before it (R121). -/
theorem compute_append_singleton (s : List Byte) (b : Byte) : compute (s ++ [b]) = ck8Step (compute s) b :=
  absorb_append Config.ckInit s [b]

/-- Settles O14: by the order in which `absorb` folds over the bytes. -/
theorem computeAbsorbsFirstToLast : Obligations.ComputeAbsorbsFirstToLast :=
  ⟨rfl, compute_append_singleton⟩

/-- Eight rounds leave a clear accumulator clear, and the XOR with its own value clears it (R123). -/
theorem ck8Step_self (b : Byte) : ck8Step b b = 0x00#8 := by
  have rounds : Nat.repeat ck8Round 8 0x00#8 = 0x00#8 := by decide
  rw [ck8Step, BitVec.xor_self, rounds]

/-! ## Responses in a ready state -/

/-- Responding in a ready state leaves nothing but the response. -/
theorem State.respond_of_ready {s : State} (h : s.Ready) (v : RegValue) :
    s.respond v = { s with
      pending := some (responseWord .ok v), trace := s.trace ++ [.response (responseWord .ok v)] } := by
  obtain ⟨hphase, hlatches⟩ := h
  rw [State.respond, State.finish, State.clearLatches_of_latchesEmpty hlatches, ← hphase]

/-- `respond(OK, zext_16(b))` puts out `b` under 24 zero bits (30_encoding.md R82). -/
theorem responseWord_ok_zeroExtend (b : Byte) : responseWord .ok (b.zeroExtend 16) = 0x000000#24 ++ b := by
  have pad : b.zeroExtend 16 = 0x00#8 ++ b := BitVec.setWidth_eq_append (by decide)
  rw [responseWord_ok, pad]
  exact (BitVec.append_assoc (x₁ := 0x0000#16) (x₂ := 0x00#8) (x₃ := b)).symm

/-! ## The words that no row takes -/

/-- Where only one row has an opcode, and the words that match it under its mask are those that decode to it, the other
words with the opcode are refused. -/
theorem refusesOtherWords_of_row {op : BitVec 4} {mask pattern : Word} {row : Word → Instr}
    (matched : ∀ w, w &&& mask = pattern ↔ decodeRequest w = .ok (row w))
    (only : ∀ w i, (Fields.ofWord w).Spells i → (Fields.ofWord w).op = op → i = row w) :
    RefusesOtherWords op mask pattern := by
  intro w hop hne
  cases hd : decodeRequest w with
  | error m => exact refusesWord_of_malformed hd
  | ok i =>
    obtain rfl := only w i (decodeRequest_eq_ok_iff.mp hd) hop
    exact absurd ((matched w).mpr hd) hne

/-! ## The three requests -/

theorem exec_ckClr_of_ready {s : State} (h : s.Ready) :
    exec .ckClr s = .next { s with
      acc := 0x00#8, pending := some 0x00000000#32, trace := s.trace ++ [.response 0x00000000#32] } :=
  congrArg Host.Outcome.next (State.respond_of_ready (s := { s with acc := Config.ckInit }) h _)

theorem exec_ckUpd_of_ready {s : State} (h : s.Ready) (b : Byte) :
    exec (.ckUpd b) s = .next { s with
      acc := ck8Step s.acc b
      pending := some (0x000000#24 ++ ck8Step s.acc b)
      trace := s.trace ++ [.response (0x000000#24 ++ ck8Step s.acc b)] } := by
  rw [← responseWord_ok_zeroExtend]
  exact congrArg Host.Outcome.next (State.respond_of_ready (s := { s with acc := ck8Step s.acc b }) h _)

theorem exec_ckGet_of_ready {s : State} (h : s.Ready) :
    exec .ckGet s = .next { s with
      pending := some (0x000000#24 ++ s.acc), trace := s.trace ++ [.response (0x000000#24 ++ s.acc)] } := by
  rw [← responseWord_ok_zeroExtend]
  exact congrArg Host.Outcome.next (State.respond_of_ready h _)

/-- Settles O19: the response in a ready state, and the one word of the row `CK.CLR`. -/
theorem clearSetsAccToZero : Obligations.ClearSetsAccToZero := by
  obtain ⟨ckClr, -⟩ := wordSpellsItsRow
  exact ⟨fun _ => exec_ckClr_of_ready, refusesOtherWords_of_row ckClr fun _ _ h => h.eq_ckClr⟩

/-- Settles O20: the response in a ready state, the byte equal to `ACC`, and the words of the row `CK.UPD`. -/
theorem updateAbsorbsOneByte : Obligations.UpdateAbsorbsOneByte := by
  obtain ⟨-, ckUpd, -⟩ := wordSpellsItsRow
  refine ⟨fun _ b h => exec_ckUpd_of_ready h b, ck8Step_self, refusesOtherWords_of_row ckUpd fun w i h hop => ?_⟩
  have operand : (Fields.ofWord w).imm.extractLsb' 0 8 = w.extractLsb' 0 8 :=
    BitVec.extractLsb'_extractLsb'_of_le (by decide)
  rw [h.eq_ckUpd hop, operand]

/-- Settles O21: the response in a ready state, which the state after reset is, and the one word of the row `CK.GET`. -/
theorem getReadsAcc : Obligations.GetReadsAcc := by
  obtain ⟨-, -, ckGet, -⟩ := wordSpellsItsRow
  exact ⟨fun _ => exec_ckGet_of_ready, ⟨_, exec_ckGet_of_ready (s := State.reset) (by decide), rfl⟩,
    refusesOtherWords_of_row ckGet fun _ _ h => h.eq_ckGet⟩

end Sys2Proof.Machine

/-! PROOFS. 41_encoder.md: the request that sets `ADDR` (R146). -/

namespace Sys2Proof

theorem Fields.Spells.eq_cfgAddr {f : Fields} {i : Instr} (h : f.Spells i) (hop : f.op = 0x4) :
    i = .cfgAddr (f.imm.extractLsb' 0 7) := by
  cases i
  case cfgAddr a7 =>
    obtain ⟨-, -, -, -, rfl⟩ := h
    rfl
  all_goals simp [Fields.Spells, hop] at h

end Sys2Proof

namespace Sys2Proof.Machine

/-- `respond(OK, zext_16(a7))` puts out the address under 25 zero bits (30_encoding.md R82). -/
theorem responseWord_ok_zeroExtend_busAddr (a7 : BusAddr) :
    responseWord .ok (a7.zeroExtend 16) = 0x000000#25 ++ a7 := by
  have pad : a7.zeroExtend 16 = 0x000#9 ++ a7 := BitVec.setWidth_eq_append (by decide)
  rw [responseWord_ok, pad]
  exact (BitVec.append_assoc (x₁ := 0x0000#16) (x₂ := 0x000#9) (x₃ := a7)).symm

theorem exec_cfgAddr_of_ready {s : State} (h : s.Ready) (a7 : BusAddr) :
    exec (.cfgAddr a7) s = .next { s with
      addr := a7
      pending := some (0x000000#25 ++ a7)
      trace := s.trace ++ [.response (0x000000#25 ++ a7)] } := by
  rw [← responseWord_ok_zeroExtend_busAddr]
  exact congrArg Host.Outcome.next (State.respond_of_ready (s := { s with addr := a7 }) h _)

/-- Settles O22: the response in a ready state, and the words of the row `CFG.ADDR`, which hold no wider address. -/
theorem configureSetsAddr : Obligations.ConfigureSetsAddr := by
  obtain ⟨-, -, -, cfgAddr, -⟩ := wordSpellsItsRow
  refine ⟨fun _ a7 h => exec_cfgAddr_of_ready h a7, refusesOtherWords_of_row cfgAddr fun w i h hop => ?_⟩
  have operand : (Fields.ofWord w).imm.extractLsb' 0 7 = w.extractLsb' 0 7 :=
    BitVec.extractLsb'_extractLsb'_of_le (by decide)
  rw [h.eq_cfgAddr hop, operand]

end Sys2Proof.Machine

/-! PROOFS. 42_transactions.md: the framed transactions `RD16` (R160), `WR16` (R163) and `SLP` (R165), and that none
checks the class of its selector (R166). A transaction is followed from the state in which it waits on its first call:
the sequencer takes the answer, and the request's end keeps no latch. That the sequencer always goes on, whatever the
answers, rests on the latches it reads. -/

namespace Sys2Proof

/-! ## The one row of an opcode -/

theorem Fields.Spells.exists_eq_rd16 {f : Fields} {i : Instr} (h : f.Spells i) (hop : f.op = 0x8) :
    ∃ sel : Selector, sel.number = f.sel ∧ i = .rd16 sel := by
  cases i
  case rd16 sel =>
    obtain ⟨-, -, hsel, -⟩ := h
    exact ⟨sel, hsel, rfl⟩
  all_goals simp [Fields.Spells, hop] at h

theorem Fields.Spells.exists_eq_wr16 {f : Fields} {i : Instr} (h : f.Spells i) (hop : f.op = 0x9) :
    ∃ sel : Selector, sel.number = f.sel ∧ i = .wr16 sel f.imm := by
  cases i
  case wr16 sel v =>
    obtain ⟨-, -, hsel, rfl⟩ := h
    exact ⟨sel, hsel, rfl⟩
  all_goals simp [Fields.Spells, hop] at h

theorem Fields.Spells.eq_slp {f : Fields} {i : Instr} (h : f.Spells i) (hop : f.op = 0xB) : i = .slp := by
  cases i
  case slp => rfl
  all_goals simp [Fields.Spells, hop] at h

end Sys2Proof

namespace Sys2Proof.Machine

/-! ## The words that no row takes -/

/-- `refusesOtherWords_of_row` for a row with a selector, which matches its words under the mask once the selector is
one of the 18. -/
theorem refusesOtherWords_of_selectorRow {op : BitVec 4} {mask pattern : Word} {row : Word → Selector → Instr}
    (matched : ∀ w : Word, (w &&& mask = pattern ∧ (w.extractLsb' 16 5).toNat ≤ 17) ↔
      ∃ sel : Selector, sel.number = w.extractLsb' 16 5 ∧ decodeRequest w = .ok (row w sel))
    (only : ∀ w i, (Fields.ofWord w).Spells i → (Fields.ofWord w).op = op →
      ∃ sel : Selector, sel.number = (Fields.ofWord w).sel ∧ i = row w sel) :
    RefusesOtherWords op mask pattern := by
  intro w hop hne
  cases hd : decodeRequest w with
  | error m => exact refusesWord_of_malformed hd
  | ok i =>
    obtain ⟨sel, hsel, rfl⟩ := only w i (decodeRequest_eq_ok_iff.mp hd) hop
    obtain ⟨hmatch, -⟩ := (matched w).mpr ⟨sel, hsel, hd⟩
    exact absurd hmatch hne

/-- R85 (d), for an opcode that takes a selector. -/
theorem refusesReservedSelectors {op : BitVec 4} (h : op.toNat ∈ [0x8, 0x9, 0xA]) : RefusesReservedSelectors op := by
  obtain ⟨rejected, refused, -⟩ := malformedWordsAreRefused
  rintro w rfl hsel
  obtain ⟨m, hm⟩ := (rejected w).mpr (.inr (.inr (.inr (.inl ⟨h, hsel⟩))))
  exact refused w m hm

/-! ## The end of a request -/

/-- The state after a request that began in `s` has run to its end: its code put out, its calls made, one response, and
no latch keeping a value (42_transactions.md R167). The answers it took are not part of it. -/
def State.completed (s : State) (sel : Selector) (calls : List Event) (rsp : Word) : State :=
  { s.lookUp sel with pending := some rsp, trace := s.trace ++ (calls ++ [.response rsp]) }

/-- A request that began in a ready state ends as `State.completed` says. -/
theorem State.finish_of_ready {s : State} (h : s.Ready) (sel : Selector) (calls : List Event) (st : Status)
    (v : RegValue) :
    State.finish st v { s.lookUp sel with trace := s.trace ++ calls } =
      s.completed sel calls (responseWord st v) := by
  cases s
  dsimp only [State.Ready, State.latchesEmpty] at h
  obtain ⟨rfl, rfl, rfl, rfl, rfl, rfl, rfl, rfl, rfl⟩ := h
  simp only [State.finish, State.completed, List.append_assoc]
  rfl

/-- Where the answer of a call ends a request, there is no more to drive. -/
theorem State.drive_of_resume_finish {s u : State} {st : Status} {v : RegValue}
    (h : s.resume = .next (u.finish st v)) : s.drive = .next (u.finish st v) :=
  (State.resumeUpTo_succ 4 h).trans (State.resumeUpTo_idle rfl 4)

/-- An instruction that starts a transaction runs it as far as the answers reach. -/
theorem exec_of_started {i : Instr} {s u : State} (h : s.started i = some u) : exec i s = u.drive := by
  cases i <;> cases h <;> rfl

/-! ## One answer -/

theorem State.resume_rdXfer {s : State} {answer : ReadAnswer} {rest : List ReadAnswer} {cmd : Byte}
    (hphase : s.phase = .rdXfer) (hreads : s.reads = answer :: rest) (hcmd : s.cmd = some cmd) :
    s.resume = .next ({ s with reads := rest }.receive answer cmd fun value s => s.respond value) := by
  simp [State.resume, State.onRead, withLatch, hphase, hreads, hcmd]

/-- `WR16` and `SLP` wait alike. -/
theorem State.resume_write {s : State} {answer : WriteAnswer} {rest : List WriteAnswer}
    (hphase : s.phase = .wrXfer ∨ s.phase = .slpXfer) (hwrites : s.writes = answer :: rest) :
    s.resume = .next ({ s with writes := rest }.acknowledge answer fun s => s.respond 0x0000#16) := by
  obtain hphase | hphase := hphase <;> simp [State.resume, State.onWrite, hphase, hwrites]

/-- How a request ends whose last call is a write with this answer (42_transactions.md R163, R165). -/
def WriteAnswer.status : WriteAnswer → Status
  | .ok => .ok
  | .err => .transportError

theorem State.acknowledge_respond (s : State) (answer : WriteAnswer) :
    (s.acknowledge answer fun s => s.respond 0x0000#16) = s.finish answer.status 0x0000#16 := by
  cases answer <;> rfl

/-! ## The three transactions in a ready state -/

/-- `RD16` in a ready state, once its answer is known to end a request in one way. -/
theorem exec_rd16_of_ready {s : State} (h : s.Ready) {sel : Selector} {answer : ReadAnswer} {rest : List ReadAnswer}
    {st : Status} {v : RegValue} {rsp : Word} (hreads : s.reads = answer :: rest) (hrsp : responseWord st v = rsp)
    (ends : ∀ u : State, u.addr = s.addr →
      (u.receive answer (s.cfg.code sel) fun value u => u.respond value) = u.finish st v) :
    exec (.rd16 sel) s = .next ({ s with reads := rest }.completed sel
      [.transportRead (saw s.addr) (s.cfg.code sel) 3 s.cfg.timeout] rsp) := by
  subst hrsp
  have resumed := State.resume_rdXfer (s := (s.accept sel none).callRead .rdXfer (s.cfg.code sel)) rfl hreads rfl
  have ended := resumed.trans (congrArg Host.Outcome.next (ends _ rfl))
  rw [exec_of_started rfl, State.drive_of_resume_finish ended]
  exact congrArg Host.Outcome.next (State.finish_of_ready (s := { s with reads := rest }) h sel _ st v)

/-- What `WR16` and `SLP` have in common: their one write call ends them. -/
theorem exec_of_write_answer {i : Instr} {s u : State} {answer : WriteAnswer} {rest : List WriteAnswer}
    (hu : s.started i = some u) (hphase : u.phase = .wrXfer ∨ u.phase = .slpXfer) (hwrites : u.writes = answer :: rest) :
    exec i s = .next ({ u with writes := rest }.finish answer.status 0x0000#16) := by
  have resumed := State.resume_write hphase hwrites
  rw [State.acknowledge_respond] at resumed
  rw [exec_of_started hu, State.drive_of_resume_finish resumed]

theorem exec_wr16_of_ready {s : State} (h : s.Ready) (sel : Selector) (v : RegValue) {answer : WriteAnswer}
    {rest : List WriteAnswer} {rsp : Word} (hrsp : responseWord answer.status 0x0000#16 = rsp)
    (hwrites : s.writes = answer :: rest) :
    exec (.wr16 sel v) s = .next ({ s with writes := rest }.completed sel
      [.transportWrite (saw s.addr) (s.cfg.code sel)
        [lowByte v, highByte v, compute (writeFrame s.addr (s.cfg.code sel) v)] s.cfg.timeout] rsp) := by
  subst hrsp
  rw [exec_of_write_answer (i := .wr16 sel v) rfl (.inl rfl) hwrites]
  exact congrArg Host.Outcome.next (State.finish_of_ready (s := { s with writes := rest }) h sel _ _ _)

theorem exec_slp_of_ready {s : State} (h : s.Ready) {answer : WriteAnswer} {rest : List WriteAnswer} {rsp : Word}
    (hrsp : responseWord answer.status 0x0000#16 = rsp) (hwrites : s.writes = answer :: rest) :
    exec .slp s = .next ({ s with writes := rest }.completed .sleep
      [.transportWrite (saw s.addr) (s.cfg.code .sleep) [compute (sleepFrame s.addr (s.cfg.code .sleep))]
        s.cfg.timeout] rsp) := by
  subst hrsp
  rw [exec_of_write_answer (i := .slp) rfl (.inr rfl) hwrites]
  exact congrArg Host.Outcome.next (State.finish_of_ready (s := { s with writes := rest }) h .sleep _ _ _)

/-- Settles O29: the four ways an answer ends a read, and the words of the row `RD16`. -/
theorem readWordChecksTheFrame : Obligations.ReadWordChecksTheFrame := by
  obtain ⟨-, -, -, -, rd16, -⟩ := wordSpellsItsRow
  obtain ⟨transportError, checksumError, -⟩ := responseWord_errors
  refine ⟨refusesOtherWords_of_selectorRow rd16 fun _ _ h => h.exists_eq_rd16, refusesReservedSelectors (by decide),
    fun s sel rest ready => ⟨fun lo hi pec hreads good => ?_, fun lo hi pec hreads bad => ?_,
      fun bytes hreads length => ?_, fun hreads => ?_⟩⟩
  · exact exec_rd16_of_ready ready hreads (responseWord_ok _) fun u hu => State.receive_good _ (hu ▸ good)
  · exact exec_rd16_of_ready ready hreads checksumError fun u hu => State.receive_bad _ (hu ▸ bad)
  · exact exec_rd16_of_ready ready hreads transportError fun u _ => State.receive_fail _ _ (.inr ⟨bytes, rfl, length⟩)
  · exact exec_rd16_of_ready ready hreads transportError fun u _ => State.receive_fail _ _ (.inl rfl)

/-- Settles O31: the two answers of the write, and the words of the row `WR16`. -/
theorem writeWordSendsTheFrame : Obligations.WriteWordSendsTheFrame := by
  obtain ⟨-, -, -, -, -, wr16, -⟩ := wordSpellsItsRow
  obtain ⟨transportError, -, -⟩ := responseWord_errors
  exact ⟨refusesOtherWords_of_selectorRow wr16 fun _ _ h => h.exists_eq_wr16, refusesReservedSelectors (by decide),
    fun _ sel v _ ready => ⟨exec_wr16_of_ready ready sel v (responseWord_ok _),
      exec_wr16_of_ready ready sel v transportError⟩⟩

/-- Settles O32: the two answers of the write, and the one word of the row `SLP`. -/
theorem sleepSendsOneChecksumByte : Obligations.SleepSendsOneChecksumByte := by
  obtain ⟨-, -, -, -, -, -, -, slp⟩ := wordSpellsItsRow
  obtain ⟨transportError, -, -⟩ := responseWord_errors
  exact ⟨refusesOtherWords_of_row slp fun _ _ h => h.eq_slp,
    fun _ _ ready => ⟨exec_slp_of_ready ready (responseWord_ok _), exec_slp_of_ready ready transportError⟩⟩

/-! ## The sequencer always goes on -/

/-- While a request is in progress `CMD` holds a value, and so does `VAL`, unless the request has none. -/
def State.HoldsOperands (s : State) : Prop :=
  s.phase = .idle ∨ ((∃ cmd, s.cmd = some cmd) ∧ (s.phase = .rdXfer ∨ s.phase = .slpXfer ∨ ∃ v, s.val = some v))

namespace State.HoldsOperands

variable {s t : State}

theorem of_started {i : Instr} (h : s.started i = some t) : t.HoldsOperands := by
  cases i <;> cases h
  case rd16 sel => exact .inr ⟨⟨_, rfl⟩, .inl rfl⟩
  case slp => exact .inr ⟨⟨_, rfl⟩, .inr (.inl rfl)⟩
  case wr16 sel v | wree sel v => exact .inr ⟨⟨_, rfl⟩, .inr (.inr ⟨v, rfl⟩)⟩

theorem finish (s : State) (st : Status) (v : RegValue) : (s.finish st v).HoldsOperands :=
  .inl rfl

theorem receive (answer : ReadAnswer) (c : Byte) {goOn : RegValue → State → State}
    (hgo : ∀ v x, x.cmd = s.cmd → x.val = s.val → (goOn v x).HoldsOperands) :
    (s.receive answer c goOn).HoldsOperands := by
  obtain ⟨_, _, _, -, -, hr⟩ | ⟨_, _, _, -, -, hr⟩ | ⟨-, hr⟩ := s.receive_cases answer c goOn <;> rw [hr]
  · exact hgo _ _ rfl rfl
  · exact finish s _ _
  · exact finish s _ _

theorem acknowledge (answer : WriteAnswer) {goOn : State → State} (hgo : (goOn s).HoldsOperands) :
    (s.acknowledge answer goOn).HoldsOperands := by
  cases answer with
  | ok => exact hgo
  | err => exact finish s _ _

/-- In the phases of `WREE` both latches hold a value. -/
theorem cmd_val (h : s.HoldsOperands) (hphase : s.phase ∈ [.eeRead, .eeErase, .eeWait1, .eeProg, .eeWait2]) :
    (∃ cmd, s.cmd = some cmd) ∧ ∃ v, s.val = some v := by
  obtain hp | ⟨hcmd, hp | hp | hval⟩ := h
  case inr.inr.inr => exact ⟨hcmd, hval⟩
  all_goals simp [hp] at hphase

/-- The latches of a request stay until its end. -/
theorem resume (h : s.HoldsOperands) (ht : s.resume = .next t) : t.HoldsOperands := by
  obtain rfl | ⟨a, rest, c, -, -, -, rfl⟩ | ⟨a, rest, -, -, rfl⟩ | ⟨a, rest, c, v, -, -, hc, hv, rfl⟩ |
    ⟨a, rest, hp, -, rfl⟩ | ⟨n, c, v, -, -, hc, hv, rfl⟩ | ⟨a, rest, hp, -, rfl⟩ | ⟨n, -, -, rfl⟩ :=
      State.resume_cases ht
  · exact h
  · exact receive a c fun _ x _ _ => finish x _ _
  · exact acknowledge a (finish _ _ _)
  · refine receive a c fun cur x hcmd hval => ?_
    split
    · exact finish x _ _
    · exact .inr ⟨⟨c, hcmd.trans hc⟩, .inr (.inr ⟨v, hval.trans hv⟩)⟩
  · obtain ⟨hcmd, hval⟩ := h.cmd_val (by simp [hp])
    exact acknowledge a (.inr ⟨hcmd, .inr (.inr hval)⟩)
  · exact .inr ⟨⟨c, hc⟩, .inr (.inr ⟨v, hv⟩)⟩
  · obtain ⟨hcmd, hval⟩ := h.cmd_val (by simp [hp])
    exact acknowledge a (.inr ⟨hcmd, .inr (.inr hval)⟩)
  · exact finish _ _ _

/-- No latch that the sequencer reads is empty, so it answers a next state: one answer taken, or still waiting. -/
theorem resume_next (h : s.HoldsOperands) : ∃ t, s.resume = .next t := by
  cases hphase : s.phase
  case idle => exact ⟨s, State.resume_idle hphase⟩
  case rdXfer =>
    obtain ⟨cmd, hcmd⟩ : ∃ cmd, s.cmd = some cmd := by simpa [HoldsOperands, hphase] using h
    cases hr : s.reads <;> simp [State.resume, State.onRead, withLatch, hphase, hr, hcmd]
  case eeRead =>
    obtain ⟨⟨cmd, hcmd⟩, v, hval⟩ := h.cmd_val (by simp [hphase])
    cases hr : s.reads <;> simp [State.resume, State.onRead, withLatch, hphase, hr, hcmd, hval]
  case wrXfer | slpXfer | eeErase | eeProg =>
    cases hw : s.writes <;> simp [State.resume, State.onWrite, hphase, hw]
  case eeWait1 =>
    obtain ⟨⟨cmd, hcmd⟩, v, hval⟩ := h.cmd_val (by simp [hphase])
    cases hd : s.delays <;> simp [State.resume, State.onDelay, withLatch, hphase, hd, hcmd, hval]
  case eeWait2 => cases hd : s.delays <;> simp [State.resume, State.onDelay, hphase, hd]

theorem resumeUpTo_next (h : s.HoldsOperands) (n : Nat) : ∃ t, s.resumeUpTo n = .next t := by
  induction n generalizing s with
  | zero => exact ⟨s, rfl⟩
  | succ n ih =>
    obtain ⟨u, hu⟩ := h.resume_next
    rw [State.resumeUpTo_succ n hu]
    exact ih (h.resume hu)

end State.HoldsOperands

/-! ## The first call of a transaction -/

/-- Driving a started transaction only adds to the trace. -/
theorem State.started_drive_trace {i : Instr} {s u t : State} (hu : s.started i = some u) (h : u.drive = .next t) :
    ∃ more, t.trace = u.trace ++ more := by
  obtain ⟨-, -, sel, -, hcmd, -⟩ := State.started_waits hu
  have start : u.RequestFrom u :=
    ⟨rfl, rfl, fun _ hc => ⟨sel, Option.some.inj (hc.symm.trans hcmd)⟩, State.fixedCalls_of_trace_eq rfl⟩
  obtain ⟨more, htrace, -⟩ := (start.drive h).calls
  exact ⟨more, htrace⟩

/-- A transaction, whatever the answers, comes to a next state in which its first call has been made. -/
theorem exec_makes_first_call {i : Instr} {s u : State} {call : Event} (hu : s.started i = some u)
    (hcall : u.trace = s.trace ++ [call]) : ∃ t more, exec i s = .next t ∧ t.trace = s.trace ++ call :: more := by
  obtain ⟨t, ht⟩ := (State.HoldsOperands.of_started hu).resumeUpTo_next maxCalls
  obtain ⟨more, htrace⟩ := State.started_drive_trace hu ht
  exact ⟨t, more, (exec_of_started hu).trans ht, by rw [htrace, hcall, List.append_assoc, List.singleton_append]⟩

/-- Settles O34: no class is looked at where a transaction starts; three requests that R249 forbids are among those
covered. -/
theorem selectorClassIsNotChecked : Obligations.SelectorClassIsNotChecked :=
  ⟨fun _ sel v => ⟨exec_makes_first_call (i := .rd16 sel) rfl rfl, exec_makes_first_call (i := .wr16 sel v) rfl rfl,
    exec_makes_first_call (i := .wree sel v) rfl rfl⟩, fun _ => ⟨rfl, rfl, rfl⟩⟩

end Sys2Proof.Machine

/-! PROOFS. 43_persistent_writer.md: the persistent-register writer `WREE` (R180, R181). A request is followed from
phase to phase by `State.Writing`, which keeps the calls made so far and leaves open what the data latches hold: they
have no part in how the request goes on, and its end clears them. -/

namespace Sys2Proof

theorem Fields.Spells.exists_eq_wree {f : Fields} {i : Instr} (h : f.Spells i) (hop : f.op = 0xA) :
    ∃ sel : Selector, sel.number = f.sel ∧ i = .wree sel f.imm := by
  cases i
  case wree sel v =>
    obtain ⟨-, -, hsel, rfl⟩ := h
    exact ⟨sel, hsel, rfl⟩
  all_goals simp [Fields.Spells, hop] at h

end Sys2Proof

namespace Sys2Proof.Machine

/-! ## One answer in each phase of `WREE` -/

section
variable {s : State} {cmd : Byte} {v : RegValue}

/-- Step 2 of `WREE`: the value read against the target, and the erasing write where they differ (R181). -/
def State.compareThenErase (cmd : Byte) (v cur : RegValue) (s : State) : State :=
  if alreadyHolds cur v then s.respond 0x0000#16 else s.sendWord .eeErase cmd Config.eraseValue

theorem State.compareThenErase_of_eq {cur : RegValue} (h : cur = v) :
    s.compareThenErase cmd v cur = s.respond 0x0000#16 := by
  simp [State.compareThenErase, alreadyHolds, h]

theorem State.compareThenErase_of_ne {cur : RegValue} (h : cur ≠ v) :
    s.compareThenErase cmd v cur = s.sendWord .eeErase cmd Config.eraseValue := by
  simp [State.compareThenErase, alreadyHolds, h]

theorem State.resume_eeRead {answer : ReadAnswer} {rest : List ReadAnswer} (hphase : s.phase = .eeRead)
    (hreads : s.reads = answer :: rest) (hcmd : s.cmd = some cmd) (hval : s.val = some v) :
    s.resume = .next ({ s with reads := rest }.receive answer cmd (State.compareThenErase cmd v)) := by
  simp only [State.resume, State.onRead, withLatch, hphase, hreads, hcmd, hval]
  rfl

theorem State.resume_eeErase {answer : WriteAnswer} {rest : List WriteAnswer} (hphase : s.phase = .eeErase)
    (hwrites : s.writes = answer :: rest) :
    s.resume = .next ({ s with writes := rest }.acknowledge answer fun s => s.callDelay .eeWait1) := by
  simp [State.resume, State.onWrite, hphase, hwrites]

theorem State.resume_eeWait1 {n : Nat} (hphase : s.phase = .eeWait1) (hdelays : s.delays = n + 1)
    (hcmd : s.cmd = some cmd) (hval : s.val = some v) :
    s.resume = .next ({ s with delays := n }.sendWord .eeProg cmd v) := by
  simp [State.resume, State.onDelay, withLatch, hphase, hdelays, hcmd, hval]

theorem State.resume_eeProg {answer : WriteAnswer} {rest : List WriteAnswer} (hphase : s.phase = .eeProg)
    (hwrites : s.writes = answer :: rest) :
    s.resume = .next ({ s with writes := rest }.acknowledge answer fun s => s.callDelay .eeWait2) := by
  simp [State.resume, State.onWrite, hphase, hwrites]

theorem State.resume_eeWait2 {n : Nat} (hphase : s.phase = .eeWait2) (hdelays : s.delays = n + 1) :
    s.resume = .next ({ s with delays := n }.respond 0x0000#16) := by
  simp [State.resume, State.onDelay, hphase, hdelays]

end

/-! ## A request from phase to phase -/

/-- The call of the framed read of a selector (42_transactions.md R160). -/
def State.readCall (s : State) (sel : Selector) : Event :=
  .transportRead (saw s.addr) (s.cfg.code sel) Config.readCount s.cfg.timeout

/-- The call of the framed write of a selector (42_transactions.md R163). -/
def State.writeCall (s : State) (sel : Selector) (x : RegValue) : Event :=
  .transportWrite (saw s.addr) (s.cfg.code sel)
    [lowByte x, highByte x, compute (writeFrame s.addr (s.cfg.code sel) x)] s.cfg.timeout

/-- The block while `WREE sel, v` waits in phase `p`, having made `calls` since `s`. The answers it took are not part of
it: `s` has those that are left; and the data latches are those of some state `d`. -/
def State.writing (s d : State) (sel : Selector) (v : RegValue) (p : Phase) (calls : List Event) : State :=
  { s.lookUp sel with
    phase := p, sel := some sel.number, cmd := some (s.cfg.code sel), val := some v
    lo := d.lo, hi := d.hi, pec := d.pec, cur := d.cur, tacc := d.tacc
    pending := none, trace := s.trace ++ calls }

/-- Taking up to `n` more answers while `WREE sel, v` waits so, with something in the data latches, leads to `r`. -/
def State.Writing (s : State) (sel : Selector) (v : RegValue) (p : Phase) (calls : List Event) (n : Nat)
    (r : Result) : Prop :=
  ∃ d : State, r = (s.writing d sel v p calls).resumeUpTo n

/-- `WREE` begins with its read. -/
theorem exec_wree_writing (s : State) (sel : Selector) (v : RegValue) :
    s.Writing sel v .eeRead [s.readCall sel] maxCalls (exec (.wree sel v) s) :=
  ⟨s.clearLatches, rfl⟩

namespace State.Writing

variable {s s' d u : State} {sel : Selector} {v : RegValue} {p q : Phase} {calls : List Event} {e : Event} {n : Nat}
  {r : Result} {lo hi pec : Byte} {answer : ReadAnswer} {reads : List ReadAnswer} {writes : List WriteAnswer}
  {delays : Nat} {st : Status}

/-- The answer of a call leads to the next call. -/
theorem of_resume (h : (s.writing d sel v p calls).resume = .next u)
    (hu : u = { s'.writing u sel v q calls with trace := s'.trace ++ calls ++ [e] }) :
    s'.Writing sel v q (calls ++ [e]) n ((s.writing d sel v p calls).resumeUpTo (n + 1)) := by
  refine ⟨u, ?_⟩
  rw [State.resumeUpTo_succ n h, State.writing, ← List.append_assoc]
  exact congrArg (State.resumeUpTo n) hu

/-- The answer of a call ends the request. -/
theorem completed_of_resume (ready : s'.Ready) (h : (s.writing d sel v p calls).resume = .next (u.finish st 0x0000#16))
    (hu : u.finish st 0x0000#16 = (s'.writing u sel v p calls).finish st 0x0000#16) :
    (s.writing d sel v p calls).resumeUpTo (n + 1) =
      .next (s'.completed sel calls (responseWord st 0x0000#16)) := by
  rw [State.resumeUpTo_succ n h, State.resumeUpTo_idle rfl, hu]
  exact congrArg Host.Outcome.next (State.finish_of_ready ready sel calls st _)

theorem waits_read (h : s.Writing sel v .eeRead calls n r) (hreads : s.reads = []) :
    ∃ t, r = .next t ∧ t.trace = s.trace ++ calls := by
  obtain ⟨d, rfl⟩ := h
  have still : (s.writing d sel v .eeRead calls).resume = .next (s.writing d sel v .eeRead calls) := by
    simp [State.resume, State.onRead, State.writing, hreads]
  exact ⟨_, State.resumeUpTo_still still n, rfl⟩

theorem read_differs (h : s.Writing sel v .eeRead calls (n + 1) r) (hreads : s.reads = .ok [lo, hi, pec] :: reads)
    (good : compute (readFrame s.addr (s.cfg.code sel) lo hi) = pec) (differs : valueOfBytes lo hi ≠ v) :
    { s with reads := reads }.Writing sel v .eeErase (calls ++ [s.writeCall sel Config.eraseValue]) n r := by
  obtain ⟨d, rfl⟩ := h
  have resumed := State.resume_eeRead (s := s.writing d sel v .eeRead calls) rfl hreads rfl rfl
  rw [State.receive_good _ (by exact good), State.compareThenErase_of_ne differs] at resumed
  exact of_resume resumed rfl

theorem erase_ok (h : s.Writing sel v .eeErase calls (n + 1) r) (hwrites : s.writes = .ok :: writes) :
    { s with writes := writes }.Writing sel v .eeWait1 (calls ++ [Event.delay Config.settle]) n r := by
  obtain ⟨d, rfl⟩ := h
  exact of_resume (State.resume_eeErase (s := s.writing d sel v .eeErase calls) rfl hwrites) rfl

theorem erase_settled (h : s.Writing sel v .eeWait1 calls (n + 1) r) (hdelays : s.delays = delays + 1) :
    { s with delays := delays }.Writing sel v .eeProg (calls ++ [s.writeCall sel v]) n r := by
  obtain ⟨d, rfl⟩ := h
  exact of_resume (State.resume_eeWait1 (s := s.writing d sel v .eeWait1 calls) rfl hdelays rfl rfl) rfl

theorem program_ok (h : s.Writing sel v .eeProg calls (n + 1) r) (hwrites : s.writes = .ok :: writes) :
    { s with writes := writes }.Writing sel v .eeWait2 (calls ++ [Event.delay Config.settle]) n r := by
  obtain ⟨d, rfl⟩ := h
  exact of_resume (State.resume_eeProg (s := s.writing d sel v .eeProg calls) rfl hwrites) rfl

/-- The read ends the request, once its answer is known to end it in one way. -/
theorem read_ends (h : s.Writing sel v .eeRead calls (n + 1) r) (ready : s.Ready) (hreads : s.reads = answer :: reads)
    (ends : ∀ u : State, u.addr = s.addr →
      u.receive answer (s.cfg.code sel) (State.compareThenErase (s.cfg.code sel) v) = u.finish st 0x0000#16) :
    r = .next ({ s with reads := reads }.completed sel calls (responseWord st 0x0000#16)) := by
  obtain ⟨d, rfl⟩ := h
  have resumed := State.resume_eeRead (s := s.writing d sel v .eeRead calls) rfl hreads rfl rfl
  have ended := resumed.trans (congrArg Host.Outcome.next (ends _ rfl))
  exact completed_of_resume (s' := { s with reads := reads }) ready ended rfl

/-- A failed write ends the request at once, the erasing and the programming one alike (R180). -/
theorem write_err (h : s.Writing sel v p calls (n + 1) r) (hp : p = .eeErase ∨ p = .eeProg) (ready : s.Ready)
    (hwrites : s.writes = .err :: writes) :
    r = .next ({ s with writes := writes }.completed sel calls (responseWord .transportError 0x0000#16)) := by
  obtain ⟨d, rfl⟩ := h
  have resumed : (s.writing d sel v p calls).resume =
      .next (State.raise .transportError { s.writing d sel v p calls with writes := writes }) := by
    obtain rfl | rfl := hp
    · exact State.resume_eeErase (s := s.writing d sel v .eeErase calls) rfl hwrites
    · exact State.resume_eeProg (s := s.writing d sel v .eeProg calls) rfl hwrites
  exact completed_of_resume (s' := { s with writes := writes }) ready resumed rfl

theorem program_settled (h : s.Writing sel v .eeWait2 calls (n + 1) r) (ready : s.Ready)
    (hdelays : s.delays = delays + 1) :
    r = .next ({ s with delays := delays }.completed sel calls (responseWord .ok 0x0000#16)) := by
  obtain ⟨d, rfl⟩ := h
  exact completed_of_resume (s' := { s with delays := delays }) ready
    (State.resume_eeWait2 (s := s.writing d sel v .eeWait2 calls) rfl hdelays) rfl

end State.Writing

/-! ## The paths of `WREE` in a ready state -/

/-- The end of a request with its response set apart from the calls. -/
theorem eq_next_of_completed {r : Result} {s : State} {sel : Selector} {calls : List Event} {rsp : Word}
    (h : r = .next (s.completed sel calls rsp)) :
    r = .next { s with
      pending := some rsp, codes := s.codes ++ [s.cfg.code sel], trace := s.trace ++ calls ++ [.response rsp] } := by
  rw [h, List.append_assoc]
  rfl

section
variable {s : State} {sel : Selector} {v : RegValue} {answer : ReadAnswer} {reads : List ReadAnswer}
  {writes : List WriteAnswer} {lo hi pec : Byte}

/-- Path P1 (R182). -/
theorem exec_wree_read_fails (ready : s.Ready) (hreads : s.reads = answer :: reads)
    (fails : answer = .err ∨ ∃ bytes, answer = .ok bytes ∧ bytes.length ≠ 3) :
    exec (.wree sel v) s =
      .next ({ s with reads := reads }.completed sel [s.readCall sel] (responseWord .transportError 0x0000#16)) :=
  (exec_wree_writing s sel v).read_ends ready hreads fun _ _ => State.receive_fail _ _ fails

/-- Path P2 (R182). -/
theorem exec_wree_read_bad (ready : s.Ready) (hreads : s.reads = .ok [lo, hi, pec] :: reads)
    (bad : compute (readFrame s.addr (s.cfg.code sel) lo hi) ≠ pec) :
    exec (.wree sel v) s =
      .next ({ s with reads := reads }.completed sel [s.readCall sel] (responseWord .checksumError 0x0000#16)) :=
  (exec_wree_writing s sel v).read_ends ready hreads fun _ hu => State.receive_bad _ (hu ▸ bad)

/-- Path P3 (R182). -/
theorem exec_wree_read_equal (ready : s.Ready) (hreads : s.reads = .ok [lo, hi, pec] :: reads)
    (good : compute (readFrame s.addr (s.cfg.code sel) lo hi) = pec) (equal : valueOfBytes lo hi = v) :
    exec (.wree sel v) s =
      .next ({ s with reads := reads }.completed sel [s.readCall sel] (responseWord .ok 0x0000#16)) :=
  (exec_wree_writing s sel v).read_ends ready hreads fun _ hu =>
    (State.receive_good _ (hu ▸ good)).trans (State.compareThenErase_of_eq equal)

end

/-- Settles O35: the three ways the read ends the request, the erasing and the programming write failing, and the way
through every phase. -/
theorem persistentWritePaths : Obligations.PersistentWritePaths := by
  obtain ⟨-, -, -, -, -, -, wree, -⟩ := wordSpellsItsRow
  obtain ⟨transportError, checksumError, -⟩ := responseWord_errors
  refine ⟨refusesOtherWords_of_selectorRow wree fun _ _ h => h.exists_eq_wree, refusesReservedSelectors (by decide),
    fun s sel v reads writes delays ready => ?_⟩
  rw [← transportError, ← checksumError]
  refine ⟨fun fails => ?_, fun lo hi pec hreads => ⟨fun bad => ?_, fun good equal => ?_, fun good differs => ?_⟩⟩
  · obtain hreads | ⟨bytes, hreads, length⟩ := fails
    · exact eq_next_of_completed (exec_wree_read_fails ready hreads (.inl rfl))
    · exact eq_next_of_completed (exec_wree_read_fails ready hreads (.inr ⟨bytes, rfl, length⟩))
  · exact eq_next_of_completed (exec_wree_read_bad ready hreads bad)
  · exact eq_next_of_completed (exec_wree_read_equal ready hreads good equal)
  · have erasing := (exec_wree_writing s sel v).read_differs hreads good differs
    refine ⟨fun hwrites => ?_, fun hwrites hdelays => ?_, fun hwrites hdelays => ?_⟩
    · exact eq_next_of_completed (erasing.write_err (.inl rfl) ready hwrites)
    · have programming := (erasing.erase_ok hwrites).erase_settled hdelays
      exact eq_next_of_completed (programming.write_err (.inr rfl) ready rfl)
    · have programming := (erasing.erase_ok hwrites).erase_settled hdelays
      exact eq_next_of_completed ((programming.program_ok rfl).program_settled ready rfl)

/-! ## Nothing is written on an unverified value -/

/-- What the answer of the read can be: none yet, a verified value other than the target, the target, or a failure. The
last two end the request after one call (R181). -/
theorem exec_wree_cases {s t : State} {sel : Selector} {v : RegValue} (ready : s.Ready)
    (h : exec (.wree sel v) s = .next t) :
    (s.reads = [] ∧ t.trace = s.trace ++ [s.readCall sel]) ∨
    (∃ lo hi pec rest, s.reads = .ok [lo, hi, pec] :: rest ∧
      compute (readFrame s.addr (s.cfg.code sel) lo hi) = pec ∧ valueOfBytes lo hi ≠ v) ∨
    (∃ lo hi pec rest, s.reads = .ok [lo, hi, pec] :: rest ∧
      compute (readFrame s.addr (s.cfg.code sel) lo hi) = pec ∧ valueOfBytes lo hi = v ∧
      t = { s with reads := rest }.completed sel [s.readCall sel] (responseWord .ok 0x0000#16)) ∨
    (∃ answer rest st, s.reads = answer :: rest ∧
      (∀ lo hi pec, answer = .ok [lo, hi, pec] → compute (readFrame s.addr (s.cfg.code sel) lo hi) ≠ pec) ∧
      st ≠ .ok ∧ t = { s with reads := rest }.completed sel [s.readCall sel] (responseWord st 0x0000#16)) := by
  cases hreads : s.reads with
  | nil =>
    obtain ⟨u, hu, htrace⟩ := (exec_wree_writing s sel v).waits_read hreads
    obtain rfl := Host.Outcome.next.inj (h.symm.trans hu)
    exact .inl ⟨rfl, htrace⟩
  | cons answer rest =>
    obtain ⟨lo, hi, pec, rfl, good, -⟩ | ⟨lo, hi, pec, rfl, bad, -⟩ | ⟨fails, -⟩ :=
      s.receive_cases answer (s.cfg.code sel) (State.compareThenErase (s.cfg.code sel) v)
    · by_cases equal : valueOfBytes lo hi = v
      · have ended := h.symm.trans (exec_wree_read_equal ready hreads good equal)
        exact .inr (.inr (.inl ⟨lo, hi, pec, rest, rfl, good, equal, Host.Outcome.next.inj ended⟩))
      · exact .inr (.inl ⟨lo, hi, pec, rest, rfl, good, equal⟩)
    · have ended := h.symm.trans (exec_wree_read_bad ready hreads bad)
      refine .inr (.inr (.inr ⟨_, rest, .checksumError, rfl, ?_, by decide, Host.Outcome.next.inj ended⟩))
      rintro _ _ _ ⟨⟩
      exact bad
    · have ended := h.symm.trans (exec_wree_read_fails ready hreads fails)
      refine .inr (.inr (.inr ⟨answer, rest, .transportError, rfl, ?_, by decide, Host.Outcome.next.inj ended⟩))
      rintro lo hi pec rfl
      simp at fails

/-- Settles O36: of what the answer of the read can be, only a verified value other than the target does not leave the
request with its read alone. -/
theorem nothingIsWrittenUnlessTheReadDiffers : Obligations.NothingIsWrittenUnlessTheReadDiffers := by
  intro s t sel v ready h
  obtain ⟨hreads, htrace⟩ | ⟨lo, hi, pec, rest, hreads, good, differs⟩ |
    ⟨lo, hi, pec, rest, hreads, good, equal, rfl⟩ | ⟨answer, rest, st, hreads, fails, hst, rfl⟩ :=
      exec_wree_cases ready h
  · refine ⟨_, htrace, ?_, ?_, ?_⟩ <;> simp [hreads, State.readCall]
  · obtain ⟨u, more, hu, htrace⟩ := exec_makes_first_call (i := .wree sel v) (s := s) rfl rfl
    obtain rfl := Host.Outcome.next.inj (h.symm.trans hu)
    refine ⟨_, htrace, fun _ => ⟨lo, hi, pec, rest, hreads, good, differs⟩, ?_, ?_⟩
    · intro lo' hi' pec' rest' hreads' _ equal
      obtain ⟨⟨rfl, rfl, rfl⟩, rfl⟩ : (lo = lo' ∧ hi = hi' ∧ pec = pec') ∧ rest = rest' := by
        simpa using hreads.symm.trans hreads'
      exact absurd equal differs
    · intro answer rest' hreads' fails
      obtain ⟨rfl, rfl⟩ := List.cons.inj (hreads.symm.trans hreads')
      exact absurd good (fails lo hi pec rfl)
  · refine ⟨_, rfl, ?_, fun _ _ _ _ _ _ _ => rfl, ?_⟩
    · simp [State.readCall]
    · intro answer rest' hreads' fails
      obtain ⟨rfl, rfl⟩ := List.cons.inj (hreads.symm.trans hreads')
      exact absurd good (fails lo hi pec rfl)
  · refine ⟨_, rfl, ?_, ?_, fun _ _ _ _ => ⟨ready.1, _, ?_, rfl, rfl⟩⟩
    · simp [State.readCall]
    · intro lo hi pec rest' hreads' good
      obtain ⟨rfl, rfl⟩ := List.cons.inj (hreads.symm.trans hreads')
      exact absurd good (fails lo hi pec rfl)
    · rwa [responseStatus_responseWord]

end Sys2Proof.Machine

/-! PROOFS. 44_host_layer.md: the conversions of physical values (R194, R195) and the operations that use them (R190,
R191, R192). A rounded value is the floor of a rational, so its bounds are those of a floor; an operation is followed
through the step that answers its one request. -/

namespace Sys2Proof.Machine

/-! ## Conversions -/

/-- Settles O48: twice the count less 27315, over 100, is the count times 0.02 less 273.15. -/
theorem rawToCelsiusIsExact : Obligations.RawToCelsiusIsExact := by
  intro raw
  simp only [rawToCelsius, Ratio.toRat]
  push_cast
  ring

/-- The check before an emissivity is sent is the precondition `0.0 <= f <= 1.0`, which no NaN meets (R190, R197). -/
theorem Ratio.inUnit_iff {f : Ratio} : f.inUnit = true ↔ f.den ≠ 0 ∧ 0 ≤ f.toRat ∧ f.toRat ≤ 1 := by
  simp only [Ratio.inUnit, Bool.and_eq_true, bne_iff_ne, decide_eq_true_eq, and_assoc]
  refine and_congr_right fun den => ?_
  have pos : (0 : Rat) < (f.den : Rat) := Nat.cast_pos.mpr (Nat.pos_of_ne_zero den)
  have upper : f.num ≤ f.den ↔ (f.num : Rat) ≤ (f.den : Rat) := by norm_cast
  rw [Ratio.toRat, le_div_iff₀ pos, zero_mul, div_le_one pos, Int.cast_nonneg_iff, upper]

theorem Ratio.num_nonneg_of_inUnit {f : Ratio} (h : f.inUnit = true) : 0 ≤ f.num := by
  simp only [Ratio.inUnit, Bool.and_eq_true, decide_eq_true_eq] at h
  obtain ⟨⟨-, lower⟩, -⟩ := h
  exact lower

/-- Where nothing is negative, rounding a half away from zero is rounding it up (D16). -/
theorem roundHalfAway_eq_floor {n : Int} (hn : 0 ≤ n) {d : Nat} (hd : d ≠ 0) :
    roundHalfAway n d = ⌊(n : Rat) / (d : Rat) + 1 / 2⌋ := by
  have den : (d : Rat) ≠ 0 := Nat.cast_ne_zero.mpr hd
  have sum : (n : Rat) / (d : Rat) + 1 / 2 = ((2 * n + d : Int) : Rat) / ((2 * d : Nat) : Rat) := by
    push_cast
    field_simp
  rw [sum, Rat.floor_intCast_div_natCast, roundHalfAway, if_pos hn]
  push_cast
  rfl

/-- In [0, 1] the rounded emissivity fits 16 bits, so none of it is lost (R195). -/
theorem emissivityToRaw_toNat {f : Ratio} (h : f.inUnit = true) :
    ((emissivityToRaw f).toNat : Int) = ⌊f.toRat * 65535 + 1 / 2⌋ := by
  obtain ⟨den, lower, upper⟩ := Ratio.inUnit_iff.mp h
  have scaled : ((f.num * 65535 : Int) : Rat) / (f.den : Rat) = f.toRat * 65535 := by
    rw [Ratio.toRat]
    push_cast
    ring
  have floor_nonneg : 0 ≤ ⌊f.toRat * 65535 + 1 / 2⌋ := Int.floor_nonneg.mpr (by linarith)
  have floor_lt : ⌊f.toRat * 65535 + 1 / 2⌋ < 65536 := Int.floor_lt.mpr (by push_cast; linarith)
  have num : 0 ≤ f.num * 65535 := mul_nonneg (Ratio.num_nonneg_of_inUnit h) (by decide)
  rw [emissivityToRaw, roundHalfAway_eq_floor num den, scaled, BitVec.toNat_ofInt]
  omega

/-- Settles O49: the floor that the result is lies at most a half above and less than a half below `f * 65535`. -/
theorem emissivityRoundsToNearest : Obligations.EmissivityRoundsToNearest := by
  refine ⟨fun f h => ?_, by decide, by decide, by decide⟩
  rw [← Int.cast_natCast (emissivityToRaw f).toNat, emissivityToRaw_toNat h]
  have above := Int.floor_le (f.toRat * 65535 + 1 / 2)
  have below := Int.lt_floor_add_one (f.toRat * 65535 + 1 / 2)
  constructor <;> linarith

/-! ## Operations -/

/-- Settles O51: the check decides whether anything is sent. -/
theorem emissivityIsCheckedBeforeSending : Obligations.EmissivityIsCheckedBeforeSending := by
  constructor
  · intro f s outside
    have unchecked : ¬ f.inUnit = true := by
      rw [Ratio.inUnit_iff]
      rintro ⟨den, lower, upper⟩
      obtain nan | below | above := outside
      · exact den nan
      · exact absurd lower (not_le.mpr below)
      · exact absurd upper (not_le.mpr above)
    rw [configureEmissivity, if_neg unchecked]
  · intro f s t rsp den lower upper sent
    rw [configureEmissivity, if_pos (Ratio.inUnit_iff.mpr ⟨den, lower, upper⟩), sent]
    rfl

theorem step_eq_exec {s : State} {o : Offer} {rest : List Offer} {i : Instr} (hr : s.resetLine = false)
    (hp : s.phase = .idle) (hi : s.inbox = o :: rest) (hd : decode s.cfg o = .ok i) :
    step s = exec i { s with inbox := rest } := by
  simp [step, hr, hp, hi, hd]

/-- In `IDLE` a request sent is the next one run, and its response is the one taken. -/
theorem send_of_exec {i : Instr} {s t : State} {rsp : Word} (hr : s.resetLine = false) (hp : s.phase = .idle)
    (hd : decode s.cfg (encode s.cfg i) = .ok i) (he : exec i s = .next t) (hrsp : t.pending = some rsp) :
    send i s = some (t, rsp) := by
  have stepped : step { s with inbox := encode s.cfg i :: s.inbox } = .next t :=
    (step_eq_exec (s := { s with inbox := encode s.cfg i :: s.inbox }) hr hp rfl hd).trans he
  simp [send, stepped, hrsp]

theorem decode_encode_rd16 (cfg : Config) (sel : Selector) :
    decode cfg (encode cfg (.rd16 sel)) = .ok (.rd16 sel) := by
  cases sel <;> rfl

/-- A temperature operation, once the answer of its read is known to end the request in one way. -/
theorem readTemperature_of_ends {s : State} (ready : s.Ready) (hr : s.resetLine = false) {sel : Selector}
    {answer : ReadAnswer} {rest : List ReadAnswer} {st : Status} {v : RegValue} (hreads : s.reads = answer :: rest)
    (ends : ∀ u : State, u.addr = s.addr →
      (u.receive answer (s.cfg.code sel) fun value u => u.respond value) = u.finish st v) :
    (readTemperature sel s).map (·.2) = some (st.toHost.map fun _ => rawToCelsius v) := by
  have sent := send_of_exec hr ready.1 (decode_encode_rd16 s.cfg sel)
    (exec_rd16_of_ready ready hreads rfl ends) rfl
  simp [readTemperature, sent]

/-- Settles O52: the four ways an answer ends the read, for any selector. -/
theorem failedReadsGiveNoTemperature : Obligations.FailedReadsGiveNoTemperature := by
  intro s answer rest ready hr hreads outcome
  have reads (sel : Selector) : (readTemperature sel s).map (·.2) = some (outcome sel) := by
    simp only [outcome]
    split
    next lo hi pec =>
      split_ifs with check
      · exact readTemperature_of_ends (st := .ok) ready hr hreads fun u hu => State.receive_good _ (hu ▸ check)
      · exact readTemperature_of_ends (st := .checksumError) ready hr hreads fun u hu =>
          State.receive_bad _ (hu ▸ check)
    next bytes other =>
      have length : bytes.length ≠ 3 := by
        rw [ne_eq, List.length_eq_three]
        rintro ⟨lo, hi, pec, rfl⟩
        exact other lo hi pec rfl
      exact readTemperature_of_ends (st := .transportError) ready hr hreads fun u _ =>
        State.receive_fail _ _ (.inr ⟨bytes, rfl, length⟩)
    next =>
      exact readTemperature_of_ends (st := .transportError) ready hr hreads fun u _ =>
        State.receive_fail _ _ (.inl rfl)
  exact ⟨reads .ta, reads .tobj1⟩

end Sys2Proof.Machine

/-! PROOFS. 60_exceptions.md: how a request ends (R216) and what an error leaves (R214). A request that raises is followed
to the last state in which it waits: the call that fails there is the one made last (R211, R212), and raising leaves
nothing of the request but its response. -/

namespace Sys2Proof

/-- The phases in which a request can wait (10_state.md R24). -/
def Instr.waits : Instr → List Machine.Phase
  | .rd16 _ => [.rdXfer]
  | .wr16 _ _ => [.wrXfer]
  | .wree _ _ => [.eeRead, .eeErase, .eeWait1, .eeProg, .eeWait2]
  | .slp => [.slpXfer]
  | .ckClr | .ckUpd _ | .ckGet | .cfgAddr _ | .cmdRawir1 | .cmdRawir2 | .cmdTa | .cmdTobj1 | .cmdTobj2 | .cmdTomax
  | .cmdTomin | .cmdPwmctrl | .cmdTarange | .cmdEmiss | .cmdConfig1 | .cmdSmbaddr | .cmdId1 | .cmdId2 | .cmdId3
  | .cmdId4 | .cmdFlags | .cmdSleep => []

/-- Only `WREE` waits on a call that another call can follow. -/
theorem Instr.eq_wree_of_waits {i : Instr} {p : Machine.Phase} (h : p ∈ i.waits)
    (hp : p ∈ [.eeRead, .eeErase, .eeWait1, .eeProg]) : ∃ sel v, i = .wree sel v := by
  cases i
  case wree sel v => exact ⟨sel, v, rfl⟩
  all_goals simp_all [Instr.waits]

theorem Instr.ok_mem_endings {i : Instr} (request : i.isRequest = true) : Machine.Status.ok ∈ i.endings := by
  cases i
  case ckClr | ckUpd | ckGet | cfgAddr | rd16 | wr16 | wree | slp => exact List.mem_cons_self
  all_goals cases request

/-- A request that waits on calls can end in `TransportError`. -/
theorem Instr.transportError_mem_endings {i : Instr} {p : Machine.Phase} (h : p ∈ i.waits) :
    Machine.Status.transportError ∈ i.endings := by
  cases i
  case rd16 | wr16 | wree | slp => simp [Instr.endings]
  all_goals exact absurd h List.not_mem_nil

/-- A request that waits on a read can end in `ChecksumError`. -/
theorem Instr.checksumError_mem_endings {i : Instr} {p : Machine.Phase} (h : p ∈ i.waits)
    (hp : p = .rdXfer ∨ p = .eeRead) : Machine.Status.checksumError ∈ i.endings := by
  cases i
  case rd16 | wree => simp [Instr.endings]
  all_goals simp_all [Instr.waits]

end Sys2Proof

namespace Sys2Proof.Machine

/-! ## The call that fails, and the calls that lead on -/

/-- The block waits on a framed read. -/
def Phase.isRead (p : Phase) : Prop :=
  p = .rdXfer ∨ p = .eeRead

/-- The block waits on a write. -/
def Phase.isWrite (p : Phase) : Prop :=
  p = .wrXfer ∨ p = .slpXfer ∨ p = .eeErase ∨ p = .eeProg

/-- The call that the block waits on is answered so that the request raises an error, its answer taken (R211, R212). -/
inductive State.CallFails (s : State) : Status → State → Prop
  | read {answer : ReadAnswer} {rest : List ReadAnswer} (phase : s.phase.isRead) (reads : s.reads = answer :: rest)
      (fails : answer = .err ∨ ∃ bytes, answer = .ok bytes ∧ bytes.length ≠ 3) :
      s.CallFails .transportError { s with reads := rest }
  | check {cmd lo hi pec : Byte} {rest : List ReadAnswer} (phase : s.phase.isRead)
      (reads : s.reads = .ok [lo, hi, pec] :: rest) (latched : s.cmd = some cmd)
      (bad : compute (readFrame s.addr cmd lo hi) ≠ pec) : s.CallFails .checksumError { s with reads := rest }
  | write {rest : List WriteAnswer} (phase : s.phase.isWrite) (writes : s.writes = .err :: rest) :
      s.CallFails .transportError { s with writes := rest }

/-- The answer of a call of `WREE` leads to its next call. -/
structure State.CallsNext (s t : State) (call : Event) : Prop where
  before : s.phase ∈ [.eeRead, .eeErase, .eeWait1, .eeProg]
  after : t.phase ∈ [.eeErase, .eeWait1, .eeProg, .eeWait2]
  trace : t.trace = s.trace ++ [call]
  noResponse : call.isResponse = false
  writing : t.phase.isWrite → ∃ a r payload time, call = .transportWrite a r payload time
  writes : ∃ taken, s.writes = taken ++ t.writes

/-- What one step of the sequencer comes to: nothing yet, a response, an error raised, or the next call. -/
inductive State.Follows (s : State) : State → Prop
  | still : s.Follows s
  | responds (x : State) (v : RegValue) : s.Follows (x.respond v)
  | raises {kind : Status} {x : State} (fails : s.CallFails kind x) : s.Follows (x.raise kind)
  | calls {t : State} (call : Event) (next : s.CallsNext t call) : s.Follows t

namespace State.Follows

variable {s t : State}

theorem receive {answer : ReadAnswer} {rest : List ReadAnswer} {cmd : Byte} {goOn : RegValue → State → State}
    (hphase : s.phase.isRead) (hreads : s.reads = answer :: rest) (hcmd : s.cmd = some cmd)
    (hgo : ∀ v x, x.trace = s.trace → x.writes = s.writes → s.Follows (goOn v x)) :
    s.Follows ({ s with reads := rest }.receive answer cmd goOn) := by
  obtain ⟨lo, hi, pec, -, -, hr⟩ | ⟨lo, hi, pec, rfl, bad, hr⟩ | ⟨fails, hr⟩ :=
    State.receive_cases { s with reads := rest } answer cmd goOn <;> rw [hr]
  · exact hgo _ _ rfl rfl
  · exact raises (.check hphase hreads hcmd bad)
  · exact raises (.read hphase hreads fails)

theorem acknowledge {answer : WriteAnswer} {rest : List WriteAnswer} {goOn : State → State}
    (hphase : s.phase.isWrite) (hwrites : s.writes = answer :: rest)
    (hgo : s.Follows (goOn { s with writes := rest })) :
    s.Follows ({ s with writes := rest }.acknowledge answer goOn) := by
  cases answer with
  | ok => exact hgo
  | err => exact raises (.write hphase hwrites)

theorem of_resume (h : s.resume = .next t) : s.Follows t := by
  obtain rfl | ⟨a, rest, c, hp, hr, hc, rfl⟩ | ⟨a, rest, hp, hw, rfl⟩ | ⟨a, rest, c, v, hp, hr, hc, -, rfl⟩ |
    ⟨a, rest, hp, hw, rfl⟩ | ⟨n, c, v, hp, -, -, -, rfl⟩ | ⟨a, rest, hp, hw, rfl⟩ | ⟨n, -, -, rfl⟩ :=
      State.resume_cases h
  · exact still
  · exact receive (.inl hp) hr hc fun v x _ _ => responds x v
  · exact acknowledge (hp.imp_right .inl) hw (responds _ _)
  · refine receive (.inr hp) hr hc fun cur x htrace hwrites => ?_
    split
    · exact responds x _
    · exact calls _ ⟨by simp [hp], by simp, congrArg (· ++ _) htrace, rfl, fun _ => ⟨_, _, _, _, rfl⟩, [], hwrites.symm⟩
  · exact acknowledge (.inr (.inr (.inl hp))) hw
      (calls _ ⟨by simp [hp], by simp, rfl, rfl, by simp [Phase.isWrite], [a], hw⟩)
  · exact calls _ ⟨by simp [hp], by simp, rfl, rfl, fun _ => ⟨_, _, _, _, rfl⟩, [], rfl⟩
  · exact acknowledge (.inr (.inr (.inr hp))) hw
      (calls _ ⟨by simp [hp], by simp, rfl, rfl, by simp [Phase.isWrite], [a], hw⟩)
  · exact responds _ _

end State.Follows

/-! ## The last state in which a request waits -/

/-- What the sequencer keeps as long as the block waits holds of the state from which its last step reaches `IDLE`. -/
theorem State.resumeUpTo_last {P : State → Prop}
    (keeps : ∀ u v, P u → u.resume = .next v → v.phase ≠ .idle → P v) {n : Nat} {s t : State} (hs : P s)
    (waits : s.phase ≠ .idle) (h : s.resumeUpTo n = .next t) (ended : t.phase = .idle) :
    ∃ u, P u ∧ u.phase ≠ .idle ∧ u.resume = .next t := by
  induction n generalizing s with
  | zero =>
    obtain rfl := Host.Outcome.next.inj h
    exact absurd ended waits
  | succ n ih =>
    cases hu : s.resume with
    | next u =>
      rw [State.resumeUpTo_succ n hu] at h
      by_cases idle : u.phase = .idle
      · obtain rfl := Host.Outcome.next.inj ((State.resumeUpTo_idle idle n).symm.trans h)
        exact ⟨s, hs, waits, hu⟩
      · exact ih (keeps s u hs hu idle) idle h
    | fault _ | refused _ => simp [State.resumeUpTo, hu] at h

/-- A state has the parameters, the registers and the inputs of the host channel that an earlier one had. -/
structure State.SameRegisters (s t : State) : Prop where
  cfg : t.cfg = s.cfg
  addr : t.addr = s.addr
  acc : t.acc = s.acc
  resetLine : t.resetLine = s.resetLine
  inbox : t.inbox = s.inbox

namespace State.SameRegisters

variable {s t u : State}

theorem trans (h : s.SameRegisters t) (hu : t.SameRegisters u) : s.SameRegisters u :=
  ⟨hu.cfg.trans h.cfg, hu.addr.trans h.addr, hu.acc.trans h.acc, hu.resetLine.trans h.resetLine,
    hu.inbox.trans h.inbox⟩

theorem of_started {i : Instr} (h : s.started i = some t) : s.SameRegisters t := by
  obtain ⟨cfg, addr, acc, resetLine, inbox, -⟩ := State.started_frame h
  exact ⟨cfg, addr, acc, resetLine, inbox⟩

theorem of_resume (h : s.resume = .next t) : s.SameRegisters t := by
  obtain ⟨cfg, addr, acc, resetLine, inbox, -⟩ := State.resume_frame h
  exact ⟨cfg, addr, acc, resetLine, inbox⟩

theorem of_callFails {kind : Status} (h : s.CallFails kind t) : s.SameRegisters t := by
  cases h <;> exact ⟨rfl, rfl, rfl, rfl, rfl⟩

end State.SameRegisters

/-- The request `i` that began in `s` waits in `u`, having made `calls`. A read it waits on is its one call so far, and
a write it waits on is its last. -/
structure State.Underway (s : State) (i : Instr) (u : State) (calls : List Event) : Prop where
  phase : u.phase ∈ i.waits
  registers : s.SameRegisters u
  trace : u.trace = s.trace ++ calls
  noResponse : ∀ e ∈ calls, e.isResponse = false
  reading : u.phase.isRead → u.reads = s.reads ∧
    ∃ cmd n time, u.cmd = some cmd ∧ calls = [.transportRead (saw s.addr) cmd n time]
  writing : u.phase.isWrite → ∃ a r payload time, calls.getLast? = some (.transportWrite a r payload time)
  writes : ∃ taken, s.writes = taken ++ u.writes

namespace State.Underway

variable {i : Instr} {s u v : State} {calls : List Event}

theorem of_started (h : s.started i = some u) : ∃ calls, s.Underway i u calls := by
  have registers := State.SameRegisters.of_started h
  cases i <;> simp only [State.started, Option.some.injEq, reduceCtorEq] at h <;> subst h
  case rd16 | wree =>
    exact ⟨[_], by simp [Instr.waits], registers, rfl, by simp [Event.isResponse],
      fun _ => ⟨rfl, _, _, _, rfl, rfl⟩, by simp [Phase.isWrite], [], rfl⟩
  case wr16 | slp =>
    exact ⟨[_], by simp [Instr.waits], registers, rfl, by simp [Event.isResponse],
      by simp [Phase.isRead], fun _ => ⟨_, _, _, _, rfl⟩, [], rfl⟩

/-- The next call keeps it: after the read no call of `WREE` is a read. -/
theorem callsNext (h : s.Underway i u calls) {call : Event} (next : u.CallsNext v call) (hv : u.resume = .next v) :
    s.Underway i v (calls ++ [call]) where
  phase := by
    obtain ⟨sel, x, rfl⟩ := Instr.eq_wree_of_waits h.phase next.before
    exact List.mem_cons_of_mem _ next.after
  registers := h.registers.trans (.of_resume hv)
  trace := by rw [next.trace, h.trace, List.append_assoc]
  noResponse := by simpa [or_imp, forall_and] using ⟨h.noResponse, next.noResponse⟩
  reading hread := by
    have after := next.after
    obtain hp | hp := hread <;> simp [hp] at after
  writing hwrite := by
    obtain ⟨a, r, payload, time, rfl⟩ := next.writing hwrite
    exact ⟨a, r, payload, time, List.getLast?_concat ..⟩
  writes := by
    obtain ⟨earlier, hs⟩ := h.writes
    obtain ⟨taken, hu⟩ := next.writes
    exact ⟨earlier ++ taken, by rw [hs, hu, List.append_assoc]⟩

theorem resume (h : ∃ calls, s.Underway i u calls) (hv : u.resume = .next v) (waits : v.phase ≠ .idle) :
    ∃ calls, s.Underway i v calls := by
  obtain ⟨calls, h⟩ := h
  cases State.Follows.of_resume hv with
  | still => exact ⟨calls, h⟩
  | responds => exact absurd rfl waits
  | raises => exact absurd rfl waits
  | calls call next => exact ⟨_, h.callsNext next hv⟩

end State.Underway

/-- A request that ends with another status than OK is raised by the call it waits on last. -/
theorem exec_raises {i : Instr} {s t : State} {rsp : Word} (request : i.isRequest = true) (h : exec i s = .next t)
    (ended : t.phase = .idle) (hrsp : t.pending = some rsp) (notOk : responseStatus rsp ≠ .ok) :
    ∃ u x calls kind, s.Underway i u calls ∧ u.CallFails kind x ∧ t = x.raise kind := by
  have responds {x : State} {v : RegValue} (ht : t = x.respond v) : False := by
    obtain rfl : responseWord .ok v = rsp := by simpa [ht] using hrsp
    exact notOk (responseStatus_responseWord _ _)
  obtain ⟨_, row, -⟩ | ⟨-, he⟩ | ⟨_, -, he⟩ | ⟨-, he⟩ | ⟨_, -, he⟩ | ⟨u, -, hu, he⟩ := exec_cases i s
  case inl => simp [Instr.isRequest, row] at request
  case inr.inr.inr.inr.inr =>
    obtain ⟨waits, -⟩ := State.started_waits hu
    obtain ⟨last, ⟨calls, underway⟩, waiting, resumed⟩ := State.resumeUpTo_last
      (P := fun u => ∃ calls, s.Underway i u calls) (fun _ _ => State.Underway.resume)
      (State.Underway.of_started hu) waits (he.symm.trans h) ended
    cases State.Follows.of_resume resumed with
    | still => exact absurd ended waiting
    | responds x v => exact (responds rfl).elim
    | raises fails => exact ⟨last, _, calls, _, underway, fails, rfl⟩
    | calls call next =>
      have after := next.after
      simp [ended] at after
  all_goals exact (responds (Host.Outcome.next.inj (h.symm.trans he))).elim

/-! ## What an error leaves -/

/-- The end of a request, seen from the ready state in which it began: the registers are those of then, and no latch
keeps a value. -/
theorem State.SameRegisters.finish_eq {s x : State} (h : s.SameRegisters x) (ready : s.Ready) (st : Status)
    (v : RegValue) :
    x.finish st v = { s with
      reads := x.reads, writes := x.writes, delays := x.delays, codes := x.codes
      pending := some (responseWord st v), trace := x.trace ++ [.response (responseWord st v)] } := by
  obtain ⟨phase, latches⟩ := ready
  rw [← State.clearLatches_of_latchesEmpty latches]
  simp only [State.finish, State.clearLatches, h.cfg, h.addr, h.acc, h.resetLine, h.inbox, phase]

theorem State.CallFails.trace_eq {s x : State} {kind : Status} (h : s.CallFails kind x) : x.trace = s.trace := by
  cases h <;> rfl

/-- Settles O41: the call that fails is the last one made, and the error is raised from the state that waits on it. -/
theorem errorsLeaveTheRegisters : Obligations.ErrorsLeaveTheRegisters := by
  intro i s t rsp ready request h ended hrsp notOk
  obtain ⟨u, x, calls, kind, underway, fails, rfl⟩ := exec_raises request h ended hrsp notOk
  obtain rfl : responseWord kind 0x0000#16 = rsp := Option.some.inj hrsp
  have leaves := (underway.registers.trans (.of_callFails fails)).finish_eq ready kind 0x0000#16
  rw [fails.trace_eq, underway.trace] at leaves
  rw [responseStatus_responseWord]
  refine ⟨rfl, x.reads, x.writes, x.delays, calls, x.codes, underway.noResponse, leaves, ?_⟩
  cases fails with
  | read phase reads fails =>
    obtain ⟨same, cmd, n, time, -, rfl⟩ := underway.reading phase
    exact .inl ⟨_, cmd, n, time, _, rfl, same.symm.trans reads, fails⟩
  | check phase reads latched bad =>
    obtain ⟨same, cmd, n, time, hcmd, rfl⟩ := underway.reading phase
    obtain rfl := Option.some.inj (latched.symm.trans hcmd)
    rw [underway.registers.addr] at bad
    exact ⟨_, _, n, time, _, _, _, rfl, same.symm.trans reads, bad⟩
  | write phase writes =>
    obtain ⟨a, r, payload, time, last⟩ := underway.writing phase
    obtain ⟨taken, hs⟩ := underway.writes
    exact .inr ⟨a, r, payload, time, taken, last, hs.trans (congrArg (taken ++ ·) writes)⟩

/-! ## How each request can end -/

theorem State.CallFails.mem_endings {i : Instr} {u x : State} {kind : Status} (h : u.CallFails kind x)
    (phase : u.phase ∈ i.waits) : kind ∈ i.endings := by
  cases h with
  | read | write => exact Instr.transportError_mem_endings phase
  | check isRead => exact Instr.checksumError_mem_endings phase isRead

theorem EndsWith.mem_endings {i : Instr} {s : State} {st : Status} (request : i.isRequest = true)
    (h : EndsWith i s st) : st ∈ i.endings := by
  obtain ⟨t, rsp, ht, ended, hrsp, rfl⟩ := h
  by_cases notOk : responseStatus rsp = .ok
  · exact notOk ▸ Instr.ok_mem_endings request
  · obtain ⟨u, x, calls, kind, underway, fails, rfl⟩ := exec_raises request ht ended hrsp notOk
    obtain rfl : responseWord kind 0x0000#16 = rsp := Option.some.inj hrsp
    rw [responseStatus_responseWord]
    exact fails.mem_endings underway.phase

/-- The two bytes of a value are put together to it again (20_memory.md R56). -/
theorem valueOfBytes_lowByte_highByte (v : RegValue) : valueOfBytes (lowByte v) (highByte v) = v := by
  calc valueOfBytes (lowByte v) (highByte v)
      = highByte v ++ lowByte v := by
        rw [BitVec.append_def, BitVec.shiftLeftZeroExtend_eq, BitVec.setWidth'_eq, BitVec.or_comm]
        rfl
    _ = v := BitVec.extractLsb'_append_extractLsb' (w := 8) (len := 8)

theorem endsWith_of_completed {i : Instr} {s s' : State} {sel : Selector} {calls : List Event} {st : Status}
    {v : RegValue} (idle : s'.phase = .idle)
    (h : exec i s = .next (s'.completed sel calls (responseWord st v))) : EndsWith i s st :=
  ⟨_, _, h, idle, rfl, responseStatus_responseWord st v⟩

theorem endsWith_of_respond {i : Instr} {s x : State} {v : RegValue} (h : exec i s = .next (x.respond v)) :
    EndsWith i s .ok :=
  ⟨_, _, h, rfl, rfl, responseStatus_responseWord .ok v⟩

/-- The block after reset, with the answers of the next reads and the next writes waiting at the transport port. -/
def State.answering (reads : List ReadAnswer) (writes : List WriteAnswer) : State :=
  { State.reset with reads := reads, writes := writes }

theorem State.answering_ready (reads : List ReadAnswer) (writes : List WriteAnswer) :
    (State.answering reads writes).Ready :=
  ⟨rfl, rfl, rfl, rfl, rfl, rfl, rfl, rfl, rfl⟩

/-- The checksum of a read frame, as a block that has just been reset computes it (30_encoding.md R90). -/
def resetReadChecksum (sel : Selector) (lo hi : Byte) : Byte :=
  compute (readFrame State.reset.addr (State.reset.cfg.code sel) lo hi)

theorem exists_wrong_checksum (sum : Byte) : ∃ pec, sum ≠ pec :=
  ⟨sum + 1#8, by bv_omega⟩

/-- A failing write ends `WR16` and `SLP` in `TransportError`, a good one in OK. -/
theorem WriteAnswer.exists_status_eq {st : Status} (h : st ∈ [.ok, .transportError]) :
    ∃ answer : WriteAnswer, answer.status = st := by
  obtain rfl | rfl : st = .ok ∨ st = .transportError := by simpa using h
  · exact ⟨.ok, rfl⟩
  · exact ⟨.err, rfl⟩

theorem exists_rd16_endsWith (sel : Selector) {st : Status} (h : st ∈ (Instr.rd16 sel).endings) :
    ∃ s : State, s.Ready ∧ EndsWith (.rd16 sel) s st := by
  obtain rfl | rfl | rfl : st = .ok ∨ st = .transportError ∨ st = .checksumError := by simpa [Instr.endings] using h
  · exact ⟨_, State.answering_ready [.ok [0, 0, resetReadChecksum sel 0 0]] [], endsWith_of_completed rfl
      (exec_rd16_of_ready (State.answering_ready ..) rfl rfl fun u hu => State.receive_good _ (hu.symm ▸ rfl))⟩
  · exact ⟨_, State.answering_ready [.err] [], endsWith_of_completed rfl
      (exec_rd16_of_ready (State.answering_ready ..) rfl rfl fun u _ => State.receive_fail _ _ (.inl rfl))⟩
  · obtain ⟨pec, bad⟩ := exists_wrong_checksum (resetReadChecksum sel 0 0)
    exact ⟨_, State.answering_ready [.ok [0, 0, pec]] [], endsWith_of_completed rfl
      (exec_rd16_of_ready (State.answering_ready ..) rfl rfl fun u hu => State.receive_bad _ (hu ▸ bad))⟩

theorem exists_wree_endsWith (sel : Selector) (v : RegValue) {st : Status} (h : st ∈ (Instr.wree sel v).endings) :
    ∃ s : State, s.Ready ∧ EndsWith (.wree sel v) s st := by
  obtain rfl | rfl | rfl : st = .ok ∨ st = .transportError ∨ st = .checksumError := by simpa [Instr.endings] using h
  · exact ⟨_, State.answering_ready [.ok [lowByte v, highByte v, resetReadChecksum sel (lowByte v) (highByte v)]] [],
      endsWith_of_completed rfl
      (exec_wree_read_equal (State.answering_ready ..) rfl rfl (valueOfBytes_lowByte_highByte v))⟩
  · exact ⟨_, State.answering_ready [.err] [], endsWith_of_completed rfl
      (exec_wree_read_fails (State.answering_ready ..) rfl (.inl rfl))⟩
  · obtain ⟨pec, bad⟩ := exists_wrong_checksum (resetReadChecksum sel 0 0)
    exact ⟨_, State.answering_ready [.ok [0, 0, pec]] [], endsWith_of_completed rfl
      (exec_wree_read_bad (State.answering_ready ..) rfl bad)⟩

theorem exists_endsWith {i : Instr} {st : Status} (request : i.isRequest = true) (h : st ∈ i.endings) :
    ∃ s : State, s.Ready ∧ EndsWith i s st := by
  cases i
  case ckClr | ckUpd | ckGet | cfgAddr =>
    obtain rfl := List.mem_singleton.mp h
    exact ⟨_, State.answering_ready [] [], endsWith_of_respond rfl⟩
  case rd16 sel => exact exists_rd16_endsWith sel h
  case wree sel v => exact exists_wree_endsWith sel v h
  case wr16 sel v =>
    obtain ⟨answer, rfl⟩ := WriteAnswer.exists_status_eq h
    exact ⟨_, State.answering_ready [] [answer], endsWith_of_completed rfl
      (exec_wr16_of_ready (State.answering_ready ..) sel v rfl rfl)⟩
  case slp =>
    obtain ⟨answer, rfl⟩ := WriteAnswer.exists_status_eq h
    exact ⟨_, State.answering_ready [] [answer], endsWith_of_completed rfl
      (exec_slp_of_ready (State.answering_ready ..) rfl rfl)⟩
  all_goals cases request

/-- A malformed word offered in `IDLE` is answered with `InvalidRequest` (R213). -/
theorem step_eq_raise_of_malformed {s : State} {w : Word} {rest : List Offer} {m : Malformed} (idle : s.phase = .idle)
    (noReset : s.resetLine = false) (offered : s.inbox = .req32 w :: rest) (hm : decodeRequest w = .error m) :
    step s = .next ({ s with inbox := rest }.raise .invalidRequest) :=
  (step_eq_refuseOffer noReset idle offered hm).trans (State.refuseOffer_eq_raise (decodeRequest_malformed hm) _)

/-- Settles O42: the last state in which a request waits bounds how it ends, a single answer brings each ending about,
where there is a call, and a word with a reserved opcode is malformed. -/
theorem endingsOfEachRequest : Obligations.EndingsOfEachRequest := by
  obtain ⟨rejected, -⟩ := malformedWordsAreRefused
  refine ⟨fun i s st request h => h.mem_endings request, fun i st => exists_endsWith, ?_,
    fun w reserved => (rejected w).mpr (.inl reserved)⟩
  rintro s w rest idle noReset offered ⟨m, hm⟩
  exact ⟨_, _, step_eq_raise_of_malformed idle noReset offered hm, rfl, rfl, responseStatus_responseWord _ _⟩

end Sys2Proof.Machine

/-! PROOFS. 30_encoding.md: writing an instruction as a word and reading a word as an instruction undo each other (R80,
R81, R84, R100). For a request both are said on the fields of the word; for a row of the command-code table they rest on
`CMD_CODE` being an enumeration. -/

namespace Sys2Proof

/-! ## Requests -/

@[simp] theorem Fields.ofWord_toWord (f : Fields) : Fields.ofWord f.toWord = f := by
  obtain ⟨op, mbz, sel, imm⟩ := f
  have hop : (op ++ mbz ++ sel ++ imm).extractLsb' 28 4 = op := by
    rw [BitVec.extractLsb'_append_eq_of_le (by decide), BitVec.extractLsb'_append_eq_of_le (by decide)]
    exact BitVec.extractLsb'_append_eq_left
  have hmbz : (op ++ mbz ++ sel ++ imm).extractLsb' 21 7 = mbz := by
    rw [BitVec.extractLsb'_append_eq_of_le (by decide), BitVec.extractLsb'_append_eq_of_le (by decide)]
    exact BitVec.extractLsb'_append_eq_right
  have hsel : (op ++ mbz ++ sel ++ imm).extractLsb' 16 5 = sel := by
    rw [BitVec.extractLsb'_append_eq_of_le (by decide)]
    exact BitVec.extractLsb'_append_eq_right
  have himm : (op ++ mbz ++ sel ++ imm).extractLsb' 0 16 = imm := BitVec.extractLsb'_append_eq_right
  simp only [Fields.ofWord, Fields.toWord, hop, hmbz, hsel, himm]

/-- A byte or an address put into a wider field has zeros above it. -/
theorem zeroExtend_eq_append {w len : Nat} (y : BitVec len) : y.zeroExtend (w + len) = 0#w ++ y := by
  apply BitVec.eq_of_toNat_eq
  have bound : y.toNat < 2 ^ (w + len) := y.isLt.trans_le (Nat.pow_le_pow_right (by decide) (by omega))
  simp [Nat.mod_eq_of_lt bound]

/-- A value with zeros in its upper bits is its lower bits, extended. -/
theorem zeroExtend_extractLsb'_of_upper_eq_zero {w len : Nat} {x : BitVec (w + len)} (h : x.extractLsb' len w = 0#w) :
    (x.extractLsb' 0 len).zeroExtend (w + len) = x := by
  rw [zeroExtend_eq_append, ← h, BitVec.extractLsb'_append_extractLsb']

/-- The word that fields spell for a request is the word that the request is written as (R81). -/
theorem Fields.Spells.encode_eq {f : Fields} {i : Instr} (h : f.Spells i) (cfg : Config) :
    encode cfg i = .req32 f.toWord := by
  obtain ⟨op, mbz, sel, imm⟩ := f
  cases i
  case ckClr | ckGet | slp =>
    obtain ⟨rfl, rfl, rfl, rfl⟩ := h
    rfl
  case ckUpd b =>
    obtain ⟨rfl, rfl, rfl, upper, rfl⟩ := h
    rw [encode, zeroExtend_extractLsb'_of_upper_eq_zero (w := 8) upper]
  case cfgAddr a7 =>
    obtain ⟨rfl, rfl, rfl, upper, rfl⟩ := h
    rw [encode, zeroExtend_extractLsb'_of_upper_eq_zero (w := 9) upper]
  case rd16 | wr16 | wree =>
    obtain ⟨rfl, rfl, rfl, rfl⟩ := h
    rfl
  all_goals exact h.elim

/-- A request is written as a word whose fields spell it (R81, R84). -/
theorem exists_spells_of_isRequest {i : Instr} (request : i.isRequest = true) (cfg : Config) :
    ∃ f : Fields, f.Spells i ∧ encode cfg i = .req32 f.toWord := by
  cases i
  case ckClr | ckGet | slp => exact ⟨_, ⟨rfl, rfl, rfl, rfl⟩, rfl⟩
  case ckUpd | cfgAddr =>
    refine ⟨_, ⟨rfl, rfl, rfl, ?upper, ?operand⟩, rfl⟩
    case upper => exact (congrArg _ (zeroExtend_eq_append _)).trans BitVec.extractLsb'_append_eq_left
    case operand => exact (congrArg _ (zeroExtend_eq_append _)).trans BitVec.extractLsb'_append_eq_right
  case rd16 | wr16 | wree => exact ⟨_, ⟨rfl, rfl, rfl, rfl⟩, rfl⟩
  all_goals cases request

/-! ## Rows of the command-code table -/

theorem Selector.mem_all (sel : Selector) : sel ∈ Selector.all := by
  cases sel <;> decide

/-- The one constraint on `CMD_CODE` is that it is injective (R100). -/
theorem Config.wellFormed_iff {cfg : Config} : cfg.wellFormed = true ↔ Function.Injective cfg.code := by
  simp only [Config.wellFormed, List.all_eq_true, Selector.mem_all, Bool.or_eq_true, beq_iff_eq, bne_iff_ne,
    forall_const, Function.Injective, or_iff_not_imp_right, not_not]

theorem encode_row (cfg : Config) (sel : Selector) : encode cfg sel.row = .cmd8 (cfg.code sel) := by
  cases sel <;> rfl

theorem Instr.eq_row_of_lookup {i : Instr} {sel : Selector} (h : i.lookup? = some sel) : i = sel.row := by
  cases i <;> cases h <;> rfl

/-- A byte spells only rows whose code it is. -/
theorem exists_row_of_decodeCommand {cfg : Config} {b : Byte} {i : Instr} (h : decodeCommand cfg b = .ok i) :
    ∃ sel : Selector, i = sel.row ∧ cfg.code sel = b := by
  unfold decodeCommand at h
  split at h
  · cases h
  next sel found =>
    obtain rfl := Except.ok.inj h
    exact ⟨sel, rfl, by simpa using List.find?_some found⟩

/-- A code spells its row, where no other selector has that code. -/
theorem decodeCommand_code {cfg : Config} (injective : Function.Injective cfg.code) (sel : Selector) :
    decodeCommand cfg (cfg.code sel) = .ok sel.row := by
  unfold decodeCommand
  split
  next none_found =>
    exact absurd (List.find?_eq_none.mp none_found sel sel.mem_all) (by simp)
  next found_sel found =>
    exact congrArg (fun x : Selector => Except.ok x.row) (injective (by simpa using List.find?_some found))

/-! ## The round trips -/

/-- A request is read back whatever the command codes are. -/
theorem decode_encode_of_isRequest {i : Instr} (request : i.isRequest = true) (cfg : Config) :
    decode cfg (encode cfg i) = .ok i := by
  obtain ⟨f, spells, hencode⟩ := exists_spells_of_isRequest request cfg
  rw [hencode]
  exact decodeRequest_eq_ok_iff.mpr (by rwa [Fields.ofWord_toWord])

/-- Settles O1: the fields of a request's word spell it, and the code of a row spells no other row. -/
theorem decodeOfEncodeIsTheInstruction : Obligations.DecodeOfEncodeIsTheInstruction := by
  intro cfg wellFormed i
  cases hlookup : i.lookup? with
  | some sel =>
    rw [Instr.eq_row_of_lookup hlookup, encode_row]
    exact decodeCommand_code (Config.wellFormed_iff.mp wellFormed) sel
  | none => exact decode_encode_of_isRequest (by simp [Instr.isRequest, hlookup]) cfg

/-- Settles O2: the fields that spell a request are those of its word, and a byte that spells a row is its code. -/
theorem eachWordHasOneMeaning : Obligations.EachWordHasOneMeaning := by
  intro cfg o i h
  cases o with
  | req32 w => rw [(decodeRequest_eq_ok_iff.mp h).encode_eq cfg, Fields.toWord_ofWord]
  | cmd8 b =>
    obtain ⟨sel, rfl, rfl⟩ := exists_row_of_decodeCommand h
    exact encode_row cfg sel

/-- Settles O5: by evaluation of the decoder. -/
theorem exampleWordsDecode : Obligations.ExampleWordsDecode := by
  unfold Obligations.ExampleWordsDecode
  decide

/-- Settles O6: the default table by evaluation; which bytes spell a row, from the look-up in an injective table. -/
theorem defaultCommandCodes : Obligations.DefaultCommandCodes := by
  refine ⟨by decide, by decide, by decide, fun cfg wellFormed b => ⟨fun sel => ⟨fun h => ?_, ?_⟩, fun i h => ?_⟩⟩
  · obtain ⟨other, hrow, rfl⟩ := exists_row_of_decodeCommand h
    have same : some sel = some other := by simpa using congrArg Instr.lookup? hrow
    rw [Option.some.inj same]
  · rintro rfl
    exact decodeCommand_code (Config.wellFormed_iff.mp wellFormed) sel
  · obtain ⟨sel, hrow, -⟩ := exists_row_of_decodeCommand h
    exact ⟨sel, hrow⟩

end Sys2Proof

namespace Sys2Proof.Machine

/-! ## Immediates -/

theorem immediate_of_number {width n : Nat} {word : List Char} (h : number word = some n) :
    immediate width word = if n < 2 ^ width then .ok (BitVec.ofNat width n) else .error .immediateTooWide := by
  simp [immediate, h, fits]

theorem selectorOperand_selectorName (sel : Selector) : selectorOperand (selectorName sel).toList = .ok sel := by
  cases sel <;> decide

/-- A line whose last operand is an immediate. -/
theorem bind_immediate_of_number {width n : Nat} {word : List Char} (h : number word = some n)
    (i : BitVec width → Instr) :
    (immediate width word >>= fun v => pure (i v)) =
      if n < 2 ^ width then .ok (i (BitVec.ofNat width n)) else .error .immediateTooWide := by
  rw [immediate_of_number h]
  split_ifs <;> rfl

/-- `WR16` and `WREE` take their operands alike. -/
theorem storeLine_of_number {n : Nat} {word : List Char} (h : number word = some n) (sel : Selector)
    (i : Selector → RegValue → Instr) :
    storeLine [(selectorName sel).toList, [','], word] i =
      if n < 65536 then .ok (i sel (BitVec.ofNat 16 n)) else .error .immediateTooWide := by
  rw [storeLine, selectorOperand_selectorName]
  exact bind_immediate_of_number h (i sel)

/-- Settles O8: the one check of the width, and the line forms that take an immediate through it. -/
theorem assemblerNeverTruncates : Obligations.AssemblerNeverTruncates := by
  intro width n word h
  refine ⟨fun wide => ?_, fun narrow => ?_, ?_, ?_, fun sel => ⟨?_, ?_⟩⟩
  · rw [immediate_of_number h, if_neg (Nat.not_lt.mpr wide)]
  · exact ⟨_, by rw [immediate_of_number h, if_pos narrow], by simp [Nat.mod_eq_of_lt narrow]⟩
  · exact bind_immediate_of_number h .ckUpd
  · exact bind_immediate_of_number h .cfgAddr
  · exact storeLine_of_number h sel .wr16
  · exact storeLine_of_number h sel .wree

/-- Settles O7: selector by selector. -/
theorem selectorClasses : Obligations.SelectorClasses := by
  intro sel
  cases sel <;> decide

/-- Settles O24: by evaluation, for each of the 128 addresses. -/
theorem addressBytesEmbedTheDirection : Obligations.AddressBytesEmbedTheDirection := by
  unfold Obligations.AddressBytesEmbedTheDirection
  decide

end Sys2Proof.Machine

/-! PROOFS. 10_state.md: the legal states (R24, R26). A request in progress is followed phase by phase: what one answer
leaves in the latches is what the next phase waits with. -/

namespace Sys2Proof.Machine

/-! ## The legal states in `IDLE` and out of it -/

namespace State.Sound

variable {s t : State}

theorem of_ready (h : s.Ready) : s.Sound :=
  .inl h

theorem ready (h : s.Sound) (idle : s.phase = .idle) : s.Ready := by
  obtain ready | ⟨-, sel, -, -, waits⟩ := h
  · exact ready
  · simp [State.waitsFor, idle] at waits

/-- A request in progress waits for one selector, whose code it has latched. -/
theorem waits (h : s.Sound) (busy : s.phase ≠ .idle) :
    s.pending = none ∧ ∃ sel : Selector, s.sel = some sel.number ∧ s.cmd = some (s.cfg.code sel) ∧ s.waitsFor sel :=
  h.resolve_left fun ready => busy ready.1

/-! ## What leaves a legal state -/

theorem finish (s : State) (st : Status) (v : RegValue) : (s.finish st v).Sound :=
  .inl ⟨rfl, rfl, rfl, rfl, rfl, rfl, rfl, rfl, rfl⟩

/-- After a read answer only the way on is left to look at, from latches that hold what was read. -/
theorem of_receive {answer : ReadAnswer} {cmd : Byte} {goOn : RegValue → State → State}
    (good : ∀ lo hi pec, (goOn (valueOfBytes lo hi)
      { s with lo := some lo, hi := some hi, pec := some pec, cur := some (valueOfBytes lo hi),
               tacc := some pec }).Sound) :
    (s.receive answer cmd goOn).Sound := by
  obtain ⟨lo, hi, pec, -, -, hr⟩ | ⟨_, _, _, -, -, hr⟩ | ⟨-, hr⟩ := s.receive_cases answer cmd goOn <;> rw [hr]
  · exact good lo hi pec
  · exact finish s _ _
  · exact finish s _ _

theorem of_acknowledge {answer : WriteAnswer} {goOn : State → State} (ok : (goOn s).Sound) :
    (s.acknowledge answer goOn).Sound := by
  cases answer with
  | ok => exact ok
  | err => exact finish s _ _

theorem of_started {i : Instr} (h : s.started i = some t) : t.Sound := by
  obtain ⟨-, pending, waits⟩ := State.started_waits h
  exact .inr ⟨pending, waits⟩

/-! ## One answer -/

/-- The code in the latch is that of the selector waited for. -/
theorem waits_of_cmd (h : s.Sound) (busy : s.phase ≠ .idle) {c : Byte} (hc : s.cmd = some c) :
    s.pending = none ∧ ∃ sel : Selector, s.sel = some sel.number ∧ c = s.cfg.code sel ∧ s.waitsFor sel := by
  obtain ⟨pending, sel, hsel, hcmd, waits⟩ := h.waits busy
  exact ⟨pending, sel, hsel, Option.some.inj (hc.symm.trans hcmd), waits⟩

theorem resume (h : s.Sound) (ht : s.resume = .next t) : t.Sound := by
  obtain rfl | ⟨a, rest, c, -, -, -, rfl⟩ | ⟨a, rest, -, -, rfl⟩ | ⟨a, rest, c, v, hp, -, hc, hv, rfl⟩ |
    ⟨a, rest, hp, -, rfl⟩ | ⟨n, c, v, hp, -, hc, hv, rfl⟩ | ⟨a, rest, hp, -, rfl⟩ | ⟨n, -, -, rfl⟩ :=
      State.resume_cases ht
  · exact h
  · exact of_receive fun _ _ _ => finish _ _ _
  · exact of_acknowledge (finish _ _ _)
  · obtain ⟨pending, sel, hsel, rfl, -⟩ := h.waits_of_cmd (by simp [hp]) hc
    refine of_receive fun lo hi _ => ?_
    split
    next => exact finish _ _ _
    next differs =>
      have ne : valueOfBytes lo hi ≠ v := by simpa [alreadyHolds] using differs
      exact .inr ⟨pending, sel, hsel, hc, v, _, hv, rfl, ne, ⟨rfl, rfl, rfl, rfl⟩, List.getLast?_concat ..⟩
  · obtain ⟨pending, sel, hsel, hcmd, waits⟩ := h.waits (by simp [hp])
    simp only [State.waitsFor, hp] at waits
    obtain ⟨v, cur, hv, hcur, ne, holds, -⟩ := waits
    exact of_acknowledge (.inr ⟨pending, sel, hsel, hcmd, v, cur, hv, hcur, ne, holds, List.getLast?_concat ..⟩)
  · obtain ⟨pending, sel, hsel, rfl, waits⟩ := h.waits_of_cmd (by simp [hp]) hc
    simp only [State.waitsFor, hp] at waits
    obtain ⟨v', cur, hv', hcur, ne, -, -⟩ := waits
    obtain rfl := Option.some.inj (hv.symm.trans hv')
    exact .inr ⟨pending, sel, hsel, hc, v, cur, hv, hcur, ne, ⟨rfl, rfl, rfl, rfl⟩, List.getLast?_concat ..⟩
  · obtain ⟨pending, sel, hsel, hcmd, waits⟩ := h.waits (by simp [hp])
    simp only [State.waitsFor, hp] at waits
    obtain ⟨v, cur, hv, hcur, ne, holds, -⟩ := waits
    exact of_acknowledge (.inr ⟨pending, sel, hsel, hcmd, v, cur, hv, hcur, ne, holds, List.getLast?_concat ..⟩)
  · exact finish _ _ _

theorem drive (h : s.Sound) (ht : s.drive = .next t) : t.Sound :=
  State.resumeUpTo_induct (fun _ _ hu hv => hu.resume hv) h ht

theorem exec {i : Instr} (ready : s.Ready) (h : exec i s = .next t) : t.Sound := by
  obtain ⟨_, -, he⟩ | ⟨-, he⟩ | ⟨_, -, he⟩ | ⟨-, he⟩ | ⟨_, -, he⟩ | ⟨u, -, hu, he⟩ := exec_cases i s <;> rw [he] at h
  case inr.inr.inr.inr.inr => exact (of_started hu).drive h
  all_goals obtain rfl := Host.Outcome.next.inj h
  case inl => exact of_ready ready
  all_goals exact finish _ _ _

end State.Sound

/-- Settles O45: after reset the block is in `IDLE` and no latch holds a value. -/
theorem resetStateIsSound : Obligations.ResetStateIsSound := by
  have ready (cfg : Config) : (State.resetWith cfg).Ready := ⟨rfl, rfl, rfl, rfl, rfl, rfl, rfl, rfl, rfl⟩
  exact fun cfg => ⟨.of_ready (ready cfg), .of_ready (ready Config.default)⟩

/-- Settles O46: a step from `IDLE` starts from empty latches, and each answer to a request in progress leaves what the
next phase waits with. -/
theorem stepKeepsStatesSound : Obligations.StepKeepsStatesSound := by
  intro s t sound h
  obtain ⟨-, -, rfl⟩ | ⟨-, -, -, rfl⟩ | ⟨_, rest, i, -, idle, -, -, he⟩ | ⟨_, rest, _, -, -, -, -, -, rfl⟩ |
    ⟨-, -, hd⟩ := step_cases h
  · exact .of_ready ⟨rfl, rfl, rfl, rfl, rfl, rfl, rfl, rfl, rfl⟩
  · exact sound
  · exact State.Sound.exec (s := { s with inbox := rest }) (sound.ready idle) he
  · exact .finish _ _ _
  · exact sound.drive hd

/-! ## Progress -/

/-- In a legal state no latch is empty that the sequencer reads. -/
theorem State.Sound.holdsOperands {s : State} (h : s.Sound) : s.HoldsOperands := by
  by_cases idle : s.phase = .idle
  · exact .inl idle
  obtain ⟨-, sel, -, hcmd, waits⟩ := h.waits idle
  refine .inr ⟨⟨_, hcmd⟩, ?_⟩
  cases hp : s.phase <;> simp only [State.waitsFor, hp] at waits
  case rdXfer => exact .inl rfl
  case slpXfer => exact .inr (.inl rfl)
  case wrXfer =>
    obtain ⟨-, v, hv, -⟩ := waits
    exact .inr (.inr ⟨v, hv⟩)
  case eeRead =>
    obtain ⟨hv, -⟩ := waits
    exact .inr (.inr hv)
  case eeErase | eeWait1 | eeProg | eeWait2 =>
    obtain ⟨v, -, hv, -⟩ := waits
    exact .inr (.inr ⟨v, hv⟩)

theorem exec_next (i : Instr) (s : State) : ∃ t, exec i s = .next t := by
  obtain ⟨_, -, he⟩ | ⟨-, he⟩ | ⟨_, -, he⟩ | ⟨-, he⟩ | ⟨_, -, he⟩ | ⟨u, -, hu, he⟩ := exec_cases i s <;> rw [he]
  case inr.inr.inr.inr.inr => exact (State.HoldsOperands.of_started hu).resumeUpTo_next maxCalls
  all_goals exact ⟨_, rfl⟩

/-- Settles O37: what is not answered at once is a transaction, which holds every latch that the sequencer reads. -/
theorem everyInstructionRuns : Obligations.EveryInstructionRuns :=
  exec_next

/-- An offered word is rejected as a byte without a code exactly if it is one (R100). -/
theorem decode_eq_noCommandCode {cfg : Config} {o : Offer} (h : decode cfg o = .error .noCommandCode) :
    ∃ b, o = .cmd8 b ∧ ∀ sel : Selector, cfg.code sel ≠ b := by
  cases o with
  | req32 w => exact absurd rfl (decodeRequest_malformed h)
  | cmd8 b =>
    refine ⟨b, rfl, fun sel hsel => ?_⟩
    simp only [decode, decodeCommand] at h
    split at h
    next none_found => exact List.find?_eq_none.mp none_found sel sel.mem_all (by simp [hsel])
    next => cases h

/-- Settles O47: the sequencer finds its latches filled, an instruction always runs, and what remains of a step is a reset
or an offered word that is rejected. -/
theorem soundStatesNeverFault : Obligations.SoundStatesNeverFault := by
  intro s sound
  by_cases reset : s.resetLine = true
  · by_cases idle : s.phase = .idle
    · exact .inl ⟨_, by rw [step, if_pos reset, State.takeReset, if_pos idle]⟩
    · exact .inr (.inl ⟨by rw [step, if_pos reset, State.takeReset, if_neg idle], reset, idle⟩)
  by_cases idle : s.phase = .idle
  case neg =>
    rw [step, if_neg reset, if_neg idle]
    exact .inl (sound.holdsOperands.resumeUpTo_next maxCalls)
  have noReset : s.resetLine = false := by simpa using reset
  cases offered : s.inbox with
  | nil => exact .inl ⟨s, by simp [step, noReset, idle, offered]⟩
  | cons o rest =>
    cases decoded : decode s.cfg o with
    | ok i =>
      rw [step_eq_exec noReset idle offered decoded]
      exact .inl (exec_next i _)
    | error m =>
      rw [step_eq_refuseOffer noReset idle offered decoded]
      by_cases hm : m = .noCommandCode
      · subst hm
        obtain ⟨b, rfl, noCode⟩ := decode_eq_noCommandCode decoded
        exact .inr (.inr ⟨rfl, idle, b, rest, rfl, noCode⟩)
      · exact .inl ⟨_, State.refuseOffer_eq_raise hm _⟩

end Sys2Proof.Machine

/-! PROOFS. 40_checksum_engine.md: the laws of the checksum (R127, R128, R129), the streaming form of it (R125), and what
rests on them and on the order of bytes in the transactions (20_memory.md R56, 42_transactions.md R161). A round is linear
over XOR and sends nothing but zero to zero; every law comes from that, through the eight rounds of a step and the steps
of a sequence. -/

namespace Sys2Proof.Machine

/-! ## Rounds and steps -/

theorem ck8Round_xor (a b : Byte) : ck8Round (a ^^^ b) = ck8Round a ^^^ ck8Round b := by
  simp only [ck8Round, BitVec.msb_xor, BitVec.shiftLeft_xor_distrib]
  have regroup : a <<< 1 ^^^ Config.poly ^^^ (b <<< 1 ^^^ Config.poly) =
      a <<< 1 ^^^ b <<< 1 ^^^ (Config.poly ^^^ Config.poly) := by ac_rfl
  cases a.msb <;> cases b.msb
  case false.false => rfl
  case false.true => exact BitVec.xor_assoc ..
  case true.false =>
    show a <<< 1 ^^^ b <<< 1 ^^^ Config.poly = a <<< 1 ^^^ Config.poly ^^^ b <<< 1
    ac_rfl
  case true.true => simp [regroup]

/-- The polynomial is odd and what a shift brings in is not, so a round loses nothing. -/
theorem ck8Round_eq_zero {a : Byte} (h : ck8Round a = 0x00#8) : a = 0x00#8 := by
  revert a
  decide

theorem ck8Round_injective : Function.Injective ck8Round := by
  intro a b h
  exact BitVec.xor_eq_zero_iff.mp (ck8Round_eq_zero (by rw [ck8Round_xor, h, BitVec.xor_self]))

theorem repeat_ck8Round_xor (n : Nat) (a b : Byte) :
    Nat.repeat ck8Round n (a ^^^ b) = Nat.repeat ck8Round n a ^^^ Nat.repeat ck8Round n b := by
  induction n with
  | zero => rfl
  | succ n ih => rw [Nat.repeat, ih, ck8Round_xor, Nat.repeat, Nat.repeat]

theorem repeat_ck8Round_injective (n : Nat) : Function.Injective (Nat.repeat ck8Round n) := by
  induction n with
  | zero => exact fun _ _ h => h
  | succ n ih => exact ck8Round_injective.comp ih

/-- R129 law 2. -/
theorem ck8Step_xor (a₁ a₂ b₁ b₂ : Byte) :
    ck8Step (a₁ ^^^ a₂) (b₁ ^^^ b₂) = ck8Step a₁ b₁ ^^^ ck8Step a₂ b₂ := by
  have regroup : a₁ ^^^ a₂ ^^^ (b₁ ^^^ b₂) = (a₁ ^^^ b₁) ^^^ (a₂ ^^^ b₂) := by ac_rfl
  rw [ck8Step, regroup, repeat_ck8Round_xor, ck8Step, ck8Step]

theorem ck8Step_zero_left (acc b : Byte) : ck8Step 0x00#8 (acc ^^^ b) = ck8Step acc b := by
  rw [ck8Step, BitVec.zero_xor, ck8Step]

theorem ck8Step_zero_right (acc b : Byte) : ck8Step (acc ^^^ b) 0x00#8 = ck8Step acc b := by
  rw [ck8Step, BitVec.xor_zero, ck8Step]

theorem ck8Step_injective_acc (b : Byte) : Function.Injective fun acc => ck8Step acc b := by
  intro a a' h
  exact (BitVec.xor_left_inj b).mp (repeat_ck8Round_injective 8 h)

theorem ck8Step_injective_byte (acc : Byte) : Function.Injective fun b => ck8Step acc b := by
  intro b b' h
  exact (BitVec.xor_right_inj acc).mp (repeat_ck8Round_injective 8 h)

/-- Settles O15: all three forms depend on the XOR of accumulator and byte alone; on its 256 values they are evaluated. -/
theorem parallelAndTableFormsAgree : Obligations.ParallelAndTableFormsAgree := by
  have forms : ∀ c : Byte,
      ck8StepParallel c 0x00#8 = ck8Step c 0x00#8 ∧ ck8Table[c.toNat]? = some (ck8Step c 0x00#8) := by decide +kernel
  have parallel (acc b : Byte) : ck8StepParallel (acc ^^^ b) 0x00#8 = ck8StepParallel acc b := by
    rw [ck8StepParallel, BitVec.xor_zero, ck8StepParallel]
  intro acc b
  rw [← parallel, ← ck8Step_zero_right]
  exact forms (acc ^^^ b)

/-! ## Sequences -/

theorem absorb_cons (acc b : Byte) (s : List Byte) : absorb acc (b :: s) = absorb (ck8Step acc b) s :=
  rfl

theorem absorb_zipWith_xor {s t : List Byte} (h : s.length = t.length) (a₁ a₂ : Byte) :
    absorb (a₁ ^^^ a₂) (List.zipWith (· ^^^ ·) s t) = absorb a₁ s ^^^ absorb a₂ t := by
  induction s generalizing t a₁ a₂ with
  | nil =>
    obtain rfl := List.length_eq_zero_iff.mp h.symm
    rfl
  | cons b s ih =>
    obtain _ | ⟨c, t⟩ := t
    · cases h
    · rw [List.zipWith_cons_cons, absorb_cons, absorb_cons, absorb_cons, ck8Step_xor]
      exact ih (Nat.succ.inj h) _ _

theorem absorb_injective (s : List Byte) : Function.Injective fun acc => absorb acc s := by
  induction s with
  | nil => exact fun _ _ h => h
  | cons b s ih => exact ih.comp (ck8Step_injective_acc b)

/-- R129 law 6, on a sequence. -/
theorem compute_ne_of_byte_ne (before after : List Byte) {b b' : Byte} (h : b ≠ b') :
    compute (before ++ b :: after) ≠ compute (before ++ b' :: after) := by
  rw [compute, compute, absorb_append, absorb_append, absorb_cons, absorb_cons]
  exact (absorb_injective after).ne ((ck8Step_injective_byte _).ne h)

/-- Settles O16: linearity of a step, and of a sequence by induction from the clear accumulator. -/
theorem checksumIsLinear : Obligations.ChecksumIsLinear :=
  ⟨ck8Step_xor, fun _ _ length => absorb_zipWith_xor length 0x00#8 0x00#8,
    fun acc b => ⟨(ck8Step_zero_left acc b).symm, (ck8Step_zero_right acc b).symm⟩⟩

/-- Settles O17: a step clears the accumulator when the byte is the accumulator's own value. -/
theorem checksumResidueIsZero : Obligations.ChecksumResidueIsZero := by
  intro s
  constructor
  · rw [compute, absorb_cons, Config.ckInit, ck8Step_self, compute, Config.ckInit]
  · rw [compute_append_singleton, ck8Step_self]

/-- Settles O18: a step loses nothing of its accumulator or of its byte, so a difference once absorbed stays. -/
theorem oneChangedByteChangesTheChecksum : Obligations.OneChangedByteChangesTheChecksum :=
  ⟨fun b => Finite.injective_iff_bijective.mp (ck8Step_injective_acc b),
    fun acc => Finite.injective_iff_bijective.mp (ck8Step_injective_byte acc),
    fun before after _ _ => compute_ne_of_byte_ne before after⟩

/-! ## The streaming form -/

/-- Requests answered one after another have taken bytes into `ACC`, each with a response and no call. -/
structure State.Streams (s : State) (bytes : List Byte) (t : State) : Prop where
  acc : t.acc = absorb s.acc bytes
  addr : t.addr = s.addr
  cfg : t.cfg = s.cfg
  trace : ∃ new : List Event, t.trace = s.trace ++ new ∧ new.length = bytes.length ∧ ∀ e ∈ new, e.isResponse = true

/-- The last response shows `ACC`. -/
def State.ShowsAcc (s : State) : Prop :=
  s.pending = some (0x000000#24 ++ s.acc)

theorem State.showsAcc_respond (s : State) : (s.respond (s.acc.zeroExtend 16)).ShowsAcc :=
  congrArg some (responseWord_ok_zeroExtend s.acc)

/-- One more response stands before those of the bytes. -/
theorem State.Streams.trace_of_respond {x t : State} {v : RegValue} {bytes : List Byte}
    (h : (x.respond v).Streams bytes t) : ∃ new : List Event, t.trace = x.trace ++ new ∧
      new.length = bytes.length + 1 ∧ ∀ e ∈ new, e.isResponse = true := by
  obtain ⟨new, htrace, length, responses⟩ := h.trace
  refine ⟨.response (responseWord .ok v) :: new, ?_, by simp [length], by simpa [Event.isResponse] using responses⟩
  rw [htrace, State.respond_trace, List.append_assoc, List.singleton_append]

theorem execAll_ckUpd (bytes : List Byte) {s : State} (shows : s.ShowsAcc) :
    ∃ t : State, execAll (bytes.map .ckUpd) s = some t ∧ s.Streams bytes t ∧ t.ShowsAcc := by
  induction bytes generalizing s with
  | nil => exact ⟨s, rfl, ⟨rfl, rfl, rfl, [], by simp⟩, shows⟩
  | cons b bytes ih =>
    obtain ⟨t, ht, streams, shown⟩ := ih (State.showsAcc_respond { s with acc := ck8Step s.acc b })
    exact ⟨t, ht, ⟨streams.acc, streams.addr, streams.cfg, streams.trace_of_respond⟩, shown⟩

/-- Settles O26: `CK.CLR` clears the accumulator, each `CK.UPD` absorbs its byte, and each responds with `ACC`. -/
theorem streamingComputesTheChecksum : Obligations.StreamingComputesTheChecksum := by
  constructor
  · intro s bytes
    obtain ⟨t, ht, streams, shown⟩ := execAll_ckUpd bytes (State.showsAcc_respond { s with acc := Config.ckInit })
    have acc : t.acc = compute bytes := streams.acc
    exact ⟨t, ht, acc, acc ▸ shown, streams.addr, streams.cfg, streams.trace_of_respond⟩
  · intro s t bytes b hacc h
    obtain rfl := Host.Outcome.next.inj h
    rw [compute_append_singleton, ← hacc]
    rfl

/-! ## Bytes on the port -/

theorem valueOfBytes_eq_append (lo hi : Byte) : valueOfBytes lo hi = hi ++ lo := by
  rw [BitVec.append_def, BitVec.shiftLeftZeroExtend_eq, BitVec.setWidth'_eq, BitVec.or_comm]
  rfl

theorem lowByte_valueOfBytes (lo hi : Byte) : lowByte (valueOfBytes lo hi) = lo := by
  rw [valueOfBytes_eq_append]
  exact BitVec.extractLsb'_append_eq_right

theorem highByte_valueOfBytes (lo hi : Byte) : highByte (valueOfBytes lo hi) = hi := by
  rw [valueOfBytes_eq_append]
  exact BitVec.extractLsb'_append_eq_left

theorem valueOfBytes_toNat (lo hi : Byte) : (valueOfBytes lo hi).toNat = lo.toNat + 256 * hi.toNat := by
  rw [valueOfBytes_eq_append, BitVec.toNat_append, ← Nat.shiftLeft_add_eq_or_of_lt lo.isLt, Nat.shiftLeft_eq]
  omega

/-- A read with a good answer ends in OK with the value read, whatever else the state holds. -/
theorem exec_rd16_good {s : State} {sel : Selector} {lo hi pec : Byte} {rest : List ReadAnswer}
    (hreads : s.reads = .ok [lo, hi, pec] :: rest) (good : compute (readFrame s.addr (s.cfg.code sel) lo hi) = pec) :
    ∃ t, exec (.rd16 sel) s = .next t ∧ t.pending = some (responseWord .ok (valueOfBytes lo hi)) := by
  have resumed := State.resume_rdXfer (s := (s.accept sel none).callRead .rdXfer (s.cfg.code sel)) rfl hreads rfl
  rw [State.receive_good _ (by exact good)] at resumed
  exact ⟨_, (exec_of_started rfl).trans (State.drive_of_resume_finish resumed), rfl⟩

/-- Settles O25: a value is its high byte over its low byte, and its frame and its response are put together so. -/
theorem valuesAreLittleEndian : Obligations.ValuesAreLittleEndian := by
  refine ⟨fun lo hi => ⟨valueOfBytes_toNat lo hi, lowByte_valueOfBytes lo hi, highByte_valueOfBytes lo hi⟩,
    valueOfBytes_lowByte_highByte, fun s sel lo hi => exec_makes_first_call rfl ?_,
    fun s sel lo hi pec rest hreads good => ?_⟩
  · rw [State.sendWord_trace, writeFrame, lowByte_valueOfBytes, highByte_valueOfBytes]
    rfl
  · obtain ⟨t, ht, pending⟩ := exec_rd16_good hreads good
    refine ⟨t, _, ht, pending, responseStatus_responseWord _ _, ?_⟩
    rw [responseValue_responseWord, valueOfBytes_toNat]

/-- Settles O30: a changed data byte changes the checksum of the frame, and a changed checksum byte does not match it. -/
theorem oneCorruptedByteFailsTheRead : Obligations.OneCorruptedByteFailsTheRead := by
  intro s sel lo hi pec lo' hi' pec' rest ready device corrupted hreads
  have bad : compute (readFrame s.addr (s.cfg.code sel) lo' hi') ≠ pec' := by
    subst device
    obtain ⟨changed, rfl, rfl⟩ | ⟨rfl, changed, rfl⟩ | ⟨rfl, rfl, changed⟩ := corrupted
    · exact compute_ne_of_byte_ne [saw s.addr, s.cfg.code sel, sar s.addr] [hi'] changed
    · exact compute_ne_of_byte_ne [saw s.addr, s.cfg.code sel, sar s.addr, lo'] [] changed
    · exact changed.symm
  obtain ⟨-, checksumError, -⟩ := responseWord_errors
  exact ⟨_, exec_rd16_of_ready ready hreads checksumError fun u hu => State.receive_bad _ (hu ▸ bad), ready.1, rfl⟩

end Sys2Proof.Machine

/-! PROOFS. 10_state.md: what a request in progress depends on, and what it does not (R21, R22, R24; 42_transactions.md
R167). The sequencer looks at the answers, at `ADDR`, at the parameters and at its latches; everything else is carried
along. So a state may be put into other surroundings, with another `ACC`, other offered words, other observations and
further answers, and the sequencer goes on in them as before. -/

namespace Sys2Proof.Machine

/-! ## A state in other surroundings -/

/-- What a request in progress carries along: the accumulator, the inputs of the host channel and the earlier
observations; and the answers that come after those a state has. -/
structure Surroundings where
  acc : Byte
  resetLine : Bool
  inbox : List Offer
  trace : List Event
  codes : List Byte
  reads : List ReadAnswer
  writes : List WriteAnswer
  delays : Nat

/-- The state in other surroundings: its own observations come after theirs, its own answers before theirs. -/
def State.within (w : Surroundings) (s : State) : State :=
  { s with
    acc := w.acc, resetLine := w.resetLine, inbox := w.inbox, trace := w.trace ++ s.trace, codes := w.codes ++ s.codes
    reads := s.reads ++ w.reads, writes := s.writes ++ w.writes, delays := s.delays + w.delays }

/-- The surroundings bring no answers. -/
structure Surroundings.Silent (w : Surroundings) : Prop where
  reads : w.reads = []
  writes : w.writes = []
  delays : w.delays = 0

/-- The block takes the same answer next, or still none, in the surroundings as without them. -/
def State.SameAnswer (w : Surroundings) (s : State) : Prop :=
  match s.phase with
  | .idle => True
  | .rdXfer | .eeRead => s.reads = [] → w.reads = []
  | .wrXfer | .slpXfer | .eeErase | .eeProg => s.writes = [] → w.writes = []
  | .eeWait1 | .eeWait2 => s.delays = 0 → w.delays = 0

/-- The outcome with its next state, if there is one, put into surroundings. -/
def inSurroundings (w : Surroundings) : Result → Result
  | .next s => .next (s.within w)
  | .fault r => .fault r
  | .refused r => .refused r

section
variable {w : Surroundings} {s t : State}

theorem State.sameAnswer_of_silent (silent : w.Silent) (s : State) : s.SameAnswer w := by
  unfold State.SameAnswer
  cases s.phase
  case idle => trivial
  case rdXfer | eeRead => exact fun _ => silent.reads
  case wrXfer | slpXfer | eeErase | eeProg => exact fun _ => silent.writes
  case eeWait1 | eeWait2 => exact fun _ => silent.delays

/-! ## The operations in other surroundings -/

theorem State.within_finish (st : Status) (v : RegValue) : (s.within w).finish st v = (s.finish st v).within w := by
  simp [State.within, State.finish, State.clearLatches]

theorem State.within_callDelay (p : Phase) : (s.within w).callDelay p = (s.callDelay p).within w := by
  simp [State.within, State.callDelay]

theorem State.within_sendWord (p : Phase) (c : Byte) (v : RegValue) :
    (s.within w).sendWord p c v = (s.sendWord p c v).within w := by
  simp [State.within, State.sendWord, State.callWrite]

theorem State.within_receive (answer : ReadAnswer) (c : Byte) {goOn : RegValue → State → State}
    (hgo : ∀ v x, goOn v (State.within w x) = (goOn v x).within w) :
    (s.within w).receive answer c goOn = (s.receive answer c goOn).within w := by
  obtain ⟨lo, hi, pec, rfl, good, hr⟩ | ⟨lo, hi, pec, rfl, bad, hr⟩ | ⟨fails, hr⟩ := s.receive_cases answer c goOn
  · rw [hr, State.receive_good _ (by exact good), ← hgo]
    rfl
  · rw [hr, State.receive_bad _ (by exact bad)]
    exact State.within_finish _ _
  · rw [hr, State.receive_fail _ _ fails]
    exact State.within_finish _ _

theorem State.within_acknowledge (answer : WriteAnswer) {goOn : State → State}
    (hgo : ∀ x, goOn (State.within w x) = (goOn x).within w) :
    (s.within w).acknowledge answer goOn = (s.acknowledge answer goOn).within w := by
  cases answer with
  | ok => exact hgo s
  | err => exact State.within_finish _ _

theorem State.within_onRead (same : s.reads = [] → w.reads = []) {k : ReadAnswer → State → Result}
    (hk : ∀ a x, k a (State.within w x) = inSurroundings w (k a x)) :
    (s.within w).onRead k = inSurroundings w (s.onRead k) := by
  cases hr : s.reads with
  | nil => simp [State.onRead, State.within, hr, same hr, inSurroundings]
  | cons a rest => simpa [State.onRead, State.within, hr] using hk a { s with reads := rest }

theorem State.within_onWrite (same : s.writes = [] → w.writes = []) {k : WriteAnswer → State → Result}
    (hk : ∀ a x, k a (State.within w x) = inSurroundings w (k a x)) :
    (s.within w).onWrite k = inSurroundings w (s.onWrite k) := by
  cases hw : s.writes with
  | nil => simp [State.onWrite, State.within, hw, same hw, inSurroundings]
  | cons a rest => simpa [State.onWrite, State.within, hw] using hk a { s with writes := rest }

theorem State.within_onDelay (same : s.delays = 0 → w.delays = 0) {k : State → Result}
    (hk : ∀ x, k (State.within w x) = inSurroundings w (k x)) :
    (s.within w).onDelay k = inSurroundings w (s.onDelay k) := by
  cases hd : s.delays with
  | zero => simp [State.onDelay, State.within, hd, same hd, inSurroundings]
  | succ n =>
    have more : n + 1 + w.delays = n + w.delays + 1 := by omega
    simpa [State.onDelay, State.within, hd, more] using hk { s with delays := n }

theorem withLatch_inSurroundings {α : Type} (name : LatchName) (latch : Option α) {k k' : α → Result}
    (hk : ∀ v, k' v = inSurroundings w (k v)) : withLatch name latch k' = inSurroundings w (withLatch name latch k) := by
  cases latch with
  | none => rfl
  | some v => exact hk v

/-! ## The sequencer in other surroundings -/

/-- One step of the sequencer, phase by phase. -/
theorem State.within_resume (same : s.SameAnswer w) : (s.within w).resume = inSurroundings w s.resume := by
  unfold State.SameAnswer at same
  have phase : (s.within w).phase = s.phase := rfl
  cases hp : s.phase <;> simp only [State.resume, phase, hp] at same ⊢
  case idle => rfl
  case rdXfer =>
    exact State.within_onRead same fun a x => withLatch_inSurroundings _ _ fun c =>
      congrArg Host.Outcome.next (State.within_receive a c fun v y => State.within_finish _ _)
  case wrXfer | slpXfer =>
    exact State.within_onWrite same fun a x =>
      congrArg Host.Outcome.next (State.within_acknowledge a fun y => State.within_finish _ _)
  case eeRead =>
    refine State.within_onRead same fun a x => withLatch_inSurroundings _ _ fun c =>
      withLatch_inSurroundings _ _ fun v =>
      congrArg Host.Outcome.next (State.within_receive a c fun cur y => ?_)
    split
    · exact State.within_finish _ _
    · exact State.within_sendWord _ _ _
  case eeErase | eeProg =>
    exact State.within_onWrite same fun a x =>
      congrArg Host.Outcome.next (State.within_acknowledge a fun y => State.within_callDelay _)
  case eeWait1 =>
    exact State.within_onDelay same fun x => withLatch_inSurroundings _ _ fun c => withLatch_inSurroundings _ _ fun v =>
      congrArg Host.Outcome.next (State.within_sendWord _ _ _)
  case eeWait2 => exact State.within_onDelay same fun x => congrArg Host.Outcome.next (State.within_finish _ _)

/-- Where the surroundings would change the next answer, the block has none yet. -/
theorem State.resume_of_not_sameAnswer (differs : ¬ s.SameAnswer w) : s.resume = .next s := by
  unfold State.SameAnswer at differs
  cases hp : s.phase <;> simp only [hp, not_true, Classical.not_imp] at differs
  case rdXfer | eeRead => simp [State.resume, State.onRead, hp, differs]
  case wrXfer | slpXfer | eeErase | eeProg => simp [State.resume, State.onWrite, hp, differs]
  case eeWait1 | eeWait2 => simp [State.resume, State.onDelay, hp, differs]

theorem State.within_resumeUpTo (silent : w.Silent) (n : Nat) (s : State) :
    (s.within w).resumeUpTo n = inSurroundings w (s.resumeUpTo n) := by
  induction n generalizing s with
  | zero => rfl
  | succ n ih =>
    have resumed := State.within_resume (State.sameAnswer_of_silent silent s)
    cases hs : s.resume with
    | next t =>
      rw [hs] at resumed
      rw [State.resumeUpTo_succ n hs, State.resumeUpTo_succ n resumed, ih t]
    | fault r | refused r =>
      rw [hs] at resumed
      simp [State.resumeUpTo, hs, resumed, inSurroundings]

/-! ## Instructions in other surroundings -/

theorem State.within_started (s : State) (i : Instr) :
    (s.within w).started i = (s.started i).map (State.within w) := by
  cases i
  case rd16 | wr16 | wree | slp =>
    simp [State.started, State.within, State.accept, State.lookUp, State.clearLatches, State.callRead, State.sendWord,
      State.sendSleep, State.callWrite]
  all_goals rfl

end

/-- A request in progress changes no register and takes nothing from the host channel. -/
theorem State.SameRegisters.drive {s t : State} (h : s.drive = .next t) : s.SameRegisters t :=
  State.resumeUpTo_induct (P := s.SameRegisters) (fun _ _ hu hv => hu.trans (.of_resume hv))
    ⟨rfl, rfl, rfl, rfl, rfl⟩ h

/-- The surroundings of a state itself, but for its accumulator and its offered words. -/
def State.around (s : State) (acc : Byte) (inbox : List Offer) : Surroundings where
  acc := acc
  resetLine := s.resetLine
  inbox := inbox
  trace := []
  codes := []
  reads := []
  writes := []
  delays := 0

theorem State.around_silent (s : State) (acc : Byte) (inbox : List Offer) : (s.around acc inbox).Silent :=
  ⟨rfl, rfl, rfl⟩

theorem State.SameRegisters.within_around {s t : State} (h : s.SameRegisters t) (acc : Byte) (inbox : List Offer) :
    t.within (s.around acc inbox) = { t with acc := acc, inbox := inbox } := by
  simp [State.within, State.around, ← h.resetLine]

theorem State.drive_around {s t u : State} (hu : s.SameRegisters u) (h : u.drive = .next t) (acc : Byte)
    (inbox : List Offer) :
    State.drive { u with acc := acc, inbox := inbox } = .next { t with acc := acc, inbox := inbox } := by
  have ht : s.SameRegisters t := hu.trans (.drive h)
  rw [← hu.within_around, ← ht.within_around, State.drive, State.within_resumeUpTo (s.around_silent acc inbox)]
  exact congrArg (inSurroundings _) h

/-! ## Who writes the registers, and who reads them -/

/-- Settles O9: out of the four branches of a step, the one of an offered word that decodes. -/
theorem stepRunsTheDecodedInstruction : Obligations.StepRunsTheDecodedInstruction :=
  fun _ _ _ _ noReset idle offered decoded => step_eq_exec noReset idle offered decoded

theorem step_eq_drive {s : State} (noReset : s.resetLine = false) (busy : s.phase ≠ .idle) : step s = s.drive := by
  simp [step, noReset, busy]

/-- Settles O10: out of `IDLE` a step drives the sequencer, which carries the offered words along. -/
theorem requestsAreAcceptedOnlyInIdle : Obligations.RequestsAreAcceptedOnlyInIdle := by
  refine ⟨fun s noReset idle offered => by simp [step, noReset, idle, offered],
    fun s t offers noReset busy h => ?_⟩
  rw [step_eq_drive noReset busy] at h
  have registers := State.SameRegisters.drive h
  have driven := State.drive_around ⟨rfl, rfl, rfl, rfl, rfl⟩ h s.acc offers
  refine ⟨registers.inbox, ?_⟩
  rw [step_eq_drive (s := { s with inbox := offers }) noReset busy]
  exact driven.trans (by rw [← registers.acc])

/-- Settles O11: by the branch of a step that carries the reset out. -/
theorem resetLeavesTheBlockReady : Obligations.ResetLeavesTheBlockReady := by
  refine ⟨fun s idle reset => ?_, rfl, rfl, rfl, rfl, ⟨rfl, rfl, rfl, rfl, rfl, rfl, rfl, rfl, rfl⟩, rfl, rfl⟩
  rw [step, if_pos reset, State.takeReset, if_pos idle]
  rfl

/-- Settles O12: by the branch of a step that refuses the reset. -/
theorem resetMidRequestHasNoMeaning : Obligations.ResetMidRequestHasNoMeaning :=
  fun s busy reset => by rw [step, if_pos reset, State.takeReset, if_neg busy]

/-- Settles O23: each row is the look-up of its selector, which touches nothing but the encoder's output. -/
theorem commandRowsPutOutTheirCodes : Obligations.CommandRowsPutOutTheirCodes := by
  intro s out
  have row (sel : Selector) : exec sel.row s = out sel := by cases sel <;> rfl
  exact ⟨row .rawir1, row .rawir2, row .ta, row .tobj1, row .tobj2, row .tomax, row .tomin, row .pwmctrl, row .tarange,
    row .emiss, row .config1, row .smbaddr, row .id1, row .id2, row .id3, row .id4, row .flags, row .sleep⟩

theorem exec_lookUp {i : Instr} {sel : Selector} (row : i.lookup? = some sel) (s : State) :
    exec i s = .next (s.lookUp sel) := by
  rw [Instr.eq_row_of_lookup row]
  cases sel <;> rfl

/-- What an instruction can do to the parameters and the registers. -/
theorem exec_registers {i : Instr} {s t : State} (h : exec i s = .next t) :
    t.cfg = s.cfg ∧ (t.addr ≠ s.addr → ∃ a7, i = .cfgAddr a7 ∧ t.addr = a7) ∧
      (t.acc ≠ s.acc → i = .ckClr ∨ ∃ b, i = .ckUpd b) := by
  obtain ⟨_, -, he⟩ | ⟨rfl, he⟩ | ⟨b, rfl, he⟩ | ⟨-, he⟩ | ⟨a7, rfl, he⟩ | ⟨u, -, hu, he⟩ := exec_cases i s <;>
    rw [he] at h
  case inr.inr.inr.inr.inr =>
    have registers := (State.SameRegisters.of_started hu).trans (.drive h)
    exact ⟨registers.cfg, absurd registers.addr, absurd registers.acc⟩
  all_goals obtain rfl := Host.Outcome.next.inj h
  · exact ⟨rfl, absurd rfl, absurd rfl⟩
  · exact ⟨rfl, absurd rfl, fun _ => .inl rfl⟩
  · exact ⟨rfl, absurd rfl, fun _ => .inr ⟨b, rfl⟩⟩
  · exact ⟨rfl, absurd rfl, absurd rfl⟩
  · exact ⟨rfl, fun _ => ⟨a7, rfl, rfl⟩, absurd rfl⟩

/-- Settles O27: a step that is no reset changes a register only where it runs the instruction that writes it. -/
theorem registersChangeOnlyByTheirRequests : Obligations.RegistersChangeOnlyByTheirRequests := by
  intro s t h
  obtain ⟨reset, idle, rfl⟩ | ⟨-, -, -, rfl⟩ | ⟨o, rest, i, -, idle, offered, decoded, he⟩ |
    ⟨_, rest, _, -, -, -, -, -, rfl⟩ | ⟨-, -, hd⟩ := step_cases h
  · exact ⟨rfl, fun _ => ⟨idle, .inl reset⟩, fun _ => ⟨idle, .inl reset⟩⟩
  · exact ⟨rfl, absurd rfl, absurd rfl⟩
  · obtain ⟨cfg, addr, acc⟩ := exec_registers he
    refine ⟨cfg, fun changed => ⟨idle, .inr ?_⟩, fun changed => ⟨idle, .inr ⟨o, rest, offered, ?_⟩⟩⟩
    · obtain ⟨a7, rfl, written⟩ := addr changed
      exact ⟨o, rest, a7, offered, decoded, written⟩
    · obtain rfl | ⟨b, rfl⟩ := acc changed
      · exact .inl decoded
      · exact .inr ⟨b, decoded⟩
  · exact ⟨rfl, absurd rfl, absurd rfl⟩
  · have registers := State.SameRegisters.drive hd
    exact ⟨registers.cfg, absurd registers.addr, absurd registers.acc⟩

/-- A transaction that finds another accumulator carries it along. -/
theorem exec_around {i : Instr} {s u t : State} (hu : s.started i = some u) (h : u.drive = .next t) (acc : Byte) :
    exec i { s with acc := acc } = .next { t with acc := acc } := by
  have started := State.SameRegisters.of_started hu
  have same : s.SameRegisters s := ⟨rfl, rfl, rfl, rfl, rfl⟩
  have start : State.started { s with acc := acc, inbox := s.inbox } i =
      some { u with acc := acc, inbox := s.inbox } := by
    rw [← same.within_around, ← started.within_around, State.within_started, hu, Option.map_some]
  have driven := State.drive_around started h acc s.inbox
  exact (exec_of_started start).trans (driven.trans (by rw [← (started.trans (.drive h)).inbox]))

/-- Settles O28: a transaction carries the accumulator along, and the other instructions but three have no part in it. -/
theorem transactionsLeaveNoTraceOnAcc : Obligations.TransactionsLeaveNoTraceOnAcc := by
  intro i s t acc notClr notGet notUpd h
  obtain ⟨-, -, written⟩ := exec_registers h
  have kept : t.acc = s.acc := by
    by_contra changed
    obtain rfl | ⟨b, rfl⟩ := written changed
    · exact notClr rfl
    · exact notUpd b rfl
  refine ⟨kept, ?_⟩
  obtain ⟨_, row, he⟩ | ⟨rfl, -⟩ | ⟨b, rfl, -⟩ | ⟨rfl, -⟩ | ⟨a7, rfl, he⟩ | ⟨u, -, hu, he⟩ := exec_cases i s
  · obtain rfl := Host.Outcome.next.inj (h.symm.trans he)
    exact exec_lookUp row _
  · exact absurd rfl notClr
  · exact absurd rfl (notUpd b)
  · exact absurd rfl notGet
  · obtain rfl := Host.Outcome.next.inj (h.symm.trans he)
    rfl
  · exact exec_around hu (he.symm.trans h) acc

/-! ## Answers that come later -/

/-- How many calls of a request, the one it waits on included, may still be answered (43_persistent_writer.md R185). -/
def Phase.callsLeft : Phase → Nat
  | .idle => 0
  | .rdXfer | .wrXfer | .slpXfer | .eeWait2 => 1
  | .eeProg => 2
  | .eeWait1 => 3
  | .eeErase => 4
  | .eeRead => 5

theorem Phase.callsLeft_le (p : Phase) : p.callsLeft ≤ maxCalls := by
  cases p <;> decide

section
variable {w : Surroundings} {s t : State}

theorem State.callsLeft_receive {answer : ReadAnswer} {c : Byte} {goOn : RegValue → State → State} {n : Nat}
    (hgo : ∀ v x, (goOn v x).phase.callsLeft < n) : (s.receive answer c goOn).phase.callsLeft < n := by
  have pos : 0 < n := Nat.zero_lt_of_lt (hgo 0 s)
  obtain ⟨_, _, _, -, -, hr⟩ | ⟨_, _, _, -, -, hr⟩ | ⟨-, hr⟩ := s.receive_cases answer c goOn <;> rw [hr]
  · exact hgo _ _
  · exact pos
  · exact pos

theorem State.callsLeft_acknowledge {answer : WriteAnswer} {goOn : State → State} {n : Nat}
    (hgo : (goOn s).phase.callsLeft < n) : (s.acknowledge answer goOn).phase.callsLeft < n := by
  cases answer with
  | ok => exact hgo
  | err => exact Nat.zero_lt_of_lt hgo

/-- Each answer leaves fewer calls to be answered. -/
theorem State.resume_callsLeft (h : s.resume = .next t) : t = s ∨ t.phase.callsLeft < s.phase.callsLeft := by
  obtain rfl | ⟨a, rest, c, hp, -, -, rfl⟩ | ⟨a, rest, hp, -, rfl⟩ | ⟨a, rest, c, v, hp, -, -, -, rfl⟩ |
    ⟨a, rest, hp, -, rfl⟩ | ⟨n, c, v, hp, -, -, -, rfl⟩ | ⟨a, rest, hp, -, rfl⟩ | ⟨n, hp, -, rfl⟩ :=
      State.resume_cases h
  · exact .inl rfl
  all_goals refine .inr ?_
  · exact hp ▸ State.callsLeft_receive fun _ _ => Nat.zero_lt_one
  · obtain hp | hp := hp <;> exact hp ▸ State.callsLeft_acknowledge Nat.zero_lt_one
  · refine hp ▸ State.callsLeft_receive fun _ _ => ?_
    split <;> simp [Phase.callsLeft]
  · exact hp ▸ State.callsLeft_acknowledge (by simp [Phase.callsLeft])
  · simp [hp, Phase.callsLeft]
  · exact hp ▸ State.callsLeft_acknowledge (by simp [Phase.callsLeft])
  · simp [hp, Phase.callsLeft]

theorem State.resumeUpTo_callsLeft {n : Nat} (h : s.resumeUpTo n = .next t) :
    t.phase.callsLeft ≤ s.phase.callsLeft :=
  State.resumeUpTo_induct (P := fun x => x.phase.callsLeft ≤ s.phase.callsLeft)
    (fun u v hu hv => by obtain rfl | fewer := State.resume_callsLeft hv <;> omega) le_rfl h

/-- The sequencer need not be driven further than its calls reach. -/
theorem State.resumeUpTo_succ_of_callsLeft {n : Nat} (enough : s.phase.callsLeft ≤ n) :
    s.resumeUpTo (n + 1) = s.resumeUpTo n := by
  induction n generalizing s with
  | zero =>
    have idle : s.phase = .idle := by
      cases hp : s.phase <;> simp [hp, Phase.callsLeft] at enough ⊢
    rw [State.resumeUpTo_idle idle, State.resumeUpTo_idle idle]
  | succ n ih =>
    cases hs : s.resume with
    | next t =>
      obtain rfl | fewer := State.resume_callsLeft hs
      · rw [State.resumeUpTo_still hs, State.resumeUpTo_still hs]
      · rw [State.resumeUpTo_succ _ hs, State.resumeUpTo_succ _ hs, ih (by omega)]
    | fault r | refused r => simp [State.resumeUpTo, hs]

/-- Further answers, given once the sequencer has come as far as it can, lead where they lead from the start. -/
theorem State.within_resumeUpTo_of_next {n : Nat} (enough : s.phase.callsLeft ≤ n) (h : s.resumeUpTo n = .next t) :
    (s.within w).resumeUpTo n = (t.within w).resumeUpTo n := by
  induction n generalizing s with
  | zero => rw [Host.Outcome.next.inj h]
  | succ n ih =>
    cases hs : s.resume with
    | fault r | refused r => simp [State.resumeUpTo, hs] at h
    | next u =>
      by_cases stays : u = s
      · subst stays
        rw [Host.Outcome.next.inj ((State.resumeUpTo_still hs _).symm.trans h)]
      have same : s.SameAnswer w := by
        by_contra differs
        exact stays (Host.Outcome.next.inj (hs.symm.trans (State.resume_of_not_sameAnswer differs)))
      have resumed := State.within_resume same
      rw [hs] at resumed
      have fewer := (State.resume_callsLeft hs).resolve_left stays
      rw [State.resumeUpTo_succ n hs] at h
      have last : t.phase.callsLeft ≤ n := (State.resumeUpTo_callsLeft h).trans (by omega)
      rw [State.resumeUpTo_succ n resumed, ih (by omega) h]
      exact (State.resumeUpTo_succ_of_callsLeft (s := t.within w) last).symm

end

/-- The surroundings of a state itself, but for further answers. -/
def State.withAnswers (s : State) (reads : List ReadAnswer) (writes : List WriteAnswer) (delays : Nat) : Surroundings :=
  { s.around s.acc s.inbox with reads := reads, writes := writes, delays := delays }

theorem State.SameRegisters.within_withAnswers {s t : State} (h : s.SameRegisters t) (reads : List ReadAnswer)
    (writes : List WriteAnswer) (delays : Nat) :
    t.within (s.withAnswers reads writes delays) =
      { t with reads := t.reads ++ reads, writes := t.writes ++ writes, delays := t.delays + delays } := by
  simp [State.within, State.withAnswers, State.around, ← h.acc, ← h.resetLine, ← h.inbox]

/-- Settles O38: the further answers are surroundings, in which the request is driven on from where it waits. -/
theorem answersMayComeLater : Obligations.AnswersMayComeLater := by
  intro i s t reads writes delays more noReset h ends
  obtain ⟨_, row, he⟩ | ⟨rfl, he⟩ | ⟨b, rfl, he⟩ | ⟨rfl, he⟩ | ⟨a7, rfl, he⟩ | ⟨u, -, hu, he⟩ := exec_cases i s
  case inl =>
    obtain rfl := Host.Outcome.next.inj (h.symm.trans he)
    have idle := ends.resolve_right (by simp [Instr.isRequest, row])
    rw [if_pos idle]
    exact exec_lookUp row _
  case inr.inr.inr.inr.inr =>
    rw [he] at h
    have started := State.SameRegisters.of_started hu
    have registers := started.trans (.drive h)
    have given {x : State} (hx : s.SameRegisters x) : more x = x.within (s.withAnswers reads writes delays) :=
      (hx.within_withAnswers reads writes delays).symm
    have start : (more s).started i = some (more u) := by
      rw [given ⟨rfl, rfl, rfl, rfl, rfl⟩, given started, State.within_started, hu, Option.map_some]
    have driven : (more u).drive = (more t).drive := by
      rw [given started, given registers]
      exact State.within_resumeUpTo_of_next u.phase.callsLeft_le h
    rw [exec_of_started start, driven]
    split
    next idle => exact State.resumeUpTo_idle (s := more t) idle _
    next busy => exact (step_eq_drive (s := more t) (registers.resetLine.trans noReset) busy).symm
  all_goals
    obtain rfl := Host.Outcome.next.inj (h.symm.trans he)
    rfl

end Sys2Proof.Machine

/-! PROOFS. All requests together: what a request depends on (42_transactions.md R167), how it waits (10_state.md R24,
R26), and how many calls and responses it makes (30_encoding.md R82, 43_persistent_writer.md R185). A request is followed
with the calls it has made so far and the calls it may still make. -/

namespace Sys2Proof.Machine

/-! ## What a request depends on -/

/-- What of a state a request can look at, `ACC` apart: its parameters, `ADDR` and its answers. -/
def State.bare (s : State) : State :=
  { State.resetWith s.cfg with addr := s.addr, reads := s.reads, writes := s.writes, delays := s.delays }

/-- What a request carries along. -/
def State.surroundings (s : State) : Surroundings :=
  { s.around s.acc s.inbox with trace := s.trace, codes := s.codes }

/-- Starting a transaction overwrites what is neither looked at nor carried along. -/
theorem State.started_eq_bare (s : State) (i : Instr) :
    s.started i = (s.bare.started i).map (State.within s.surroundings) := by
  cases i
  case rd16 | wr16 | wree | slp =>
    simp [State.started, State.within, State.bare, State.surroundings, State.around, State.resetWith, State.accept,
      State.lookUp, State.clearLatches, State.callRead, State.sendWord, State.sendSleep, State.callWrite]
  all_goals rfl

theorem exec_eq_bare {i : Instr} {s u : State} (h : s.bare.started i = some u) :
    exec i s = inSurroundings s.surroundings u.drive := by
  have start : s.started i = some (u.within s.surroundings) := by rw [State.started_eq_bare, h, Option.map_some]
  rw [exec_of_started start, State.drive, State.within_resumeUpTo ⟨rfl, rfl, rfl⟩]
  rfl

/-- Two runs of one instruction go alike: they come to the same phase and the same response, by the same events. -/
def RunsAlike (i : Instr) (s₁ s₂ t₁ : State) : Prop :=
  ∃ (t₂ : State) (new : List Event), exec i s₂ = .next t₂ ∧ t₂.phase = t₁.phase ∧ t₂.pending = t₁.pending ∧
    t₁.trace = s₁.trace ++ new ∧ t₂.trace = s₂.trace ++ new

theorem runsAlike_of_respond {i : Instr} {s₁ s₂ x₁ x₂ : State} {v : RegValue} (h : exec i s₂ = .next (x₂.respond v))
    (h₁ : x₁.trace = s₁.trace) (h₂ : x₂.trace = s₂.trace) : RunsAlike i s₁ s₂ (x₁.respond v) :=
  ⟨_, [.response (responseWord .ok v)], h, rfl, rfl, by simp [h₁], by simp [h₂]⟩

/-- Settles O44: what a transaction looks at is the same in both states, and what it carries along has no part in how it
goes on; the other requests respond with their operand or with `ACC`. -/
theorem requestsDependOnlyOnAddressAndAnswers : Obligations.RequestsDependOnlyOnAddressAndAnswers := by
  intro i s₁ s₂ t₁ request cfg addr reads writes delays acc h
  obtain ⟨_, row, -⟩ | ⟨rfl, he⟩ | ⟨b, rfl, he⟩ | ⟨rfl, he⟩ | ⟨a7, rfl, he⟩ | ⟨u, -, hu, -⟩ := exec_cases i s₁
  case inl => simp [Instr.isRequest, row] at request
  case inr.inr.inr.inr.inr =>
    obtain ⟨u₁, hu₁, -⟩ := Option.map_eq_some_iff.mp ((State.started_eq_bare s₁ i).symm.trans hu)
    have bare : s₂.bare = s₁.bare := by simp [State.bare, cfg, addr, reads, writes, delays]
    rw [exec_eq_bare hu₁] at h
    have h₂ := exec_eq_bare (s := s₂) (bare ▸ hu₁)
    cases hd : u₁.drive with
    | next t =>
      rw [hd] at h h₂
      obtain rfl := Host.Outcome.next.inj h
      exact ⟨_, t.trace, h₂, rfl, rfl, rfl, rfl⟩
    | fault _ | refused _ => simp [hd, inSurroundings] at h
  all_goals
    obtain rfl := Host.Outcome.next.inj (h.symm.trans he)
  · exact runsAlike_of_respond (i := .ckClr) rfl rfl rfl
  · rw [acc (.inr ⟨b, rfl⟩)]
    exact runsAlike_of_respond (i := .ckUpd b) rfl rfl rfl
  · rw [acc (.inl rfl)]
    exact runsAlike_of_respond (i := .ckGet) rfl rfl rfl
  · exact runsAlike_of_respond (i := .cfgAddr a7) rfl rfl rfl

/-! ## How a request waits -/

/-- A transaction whose first call has no answer is left as it was started. -/
theorem exec_eq_started {i : Instr} {s u : State} (hu : s.started i = some u) (still : u.resume = .next u) :
    exec i s = .next u :=
  (exec_of_started hu).trans (State.resumeUpTo_still still _)

/-- In a ready state there is nothing but `SEL`, `CMD` and `VAL` that an acceptance writes into the latches. -/
theorem State.accept_of_ready {s : State} (h : s.Ready) (sel : Selector) (value : Option RegValue) :
    s.accept sel value = { s.lookUp sel with
      sel := some sel.number, cmd := some (s.cfg.code sel), val := value, pending := none } := by
  obtain ⟨-, latches⟩ := h
  rw [State.accept, State.clearLatches_of_latchesEmpty (s := s.lookUp sel) latches]

/-- Settles O33: a started transaction of a ready state, in which the sequencer finds no answer. -/
theorem transactionsWaitForTheirAnswer : Obligations.TransactionsWaitForTheirAnswer := by
  intro s sel v ready at_
  have noVal : s.val = none := by
    obtain ⟨-, -, -, noVal, -⟩ := ready
    exact noVal
  refine ⟨fun unanswered => ?_, fun unanswered => ?_, fun unanswered => ?_, fun unanswered => ?_⟩
  · rw [exec_eq_started (i := .rd16 sel) rfl (by simp [State.resume, State.onRead, unanswered]),
      State.accept_of_ready ready, ← noVal]
    rfl
  · rw [exec_eq_started (i := .wree sel v) rfl (by simp [State.resume, State.onRead, unanswered]),
      State.accept_of_ready ready]
    rfl
  · rw [exec_eq_started (i := .wr16 sel v) rfl (by simp [State.resume, State.onWrite, unanswered]),
      State.accept_of_ready ready]
    rfl
  · rw [exec_eq_started (i := .slp) rfl (by simp [State.resume, State.onWrite, unanswered]),
      State.accept_of_ready ready, ← noVal]
    rfl

/-! ## The calls and the response of a request -/

/-- How many transport calls may follow the call waited on (R185). -/
def Phase.transportsLeft : Phase → Nat
  | .eeRead => 2
  | .eeErase | .eeWait1 => 1
  | .idle | .rdXfer | .wrXfer | .slpXfer | .eeProg | .eeWait2 => 0

/-- How many delays may follow the call waited on (R185). -/
def Phase.delaysLeft : Phase → Nat
  | .eeRead | .eeErase => 2
  | .eeWait1 | .eeProg => 1
  | .idle | .rdXfer | .wrXfer | .slpXfer | .eeWait2 => 0

/-- The calls `calls` may be made in a request that is to make so many more transport calls and delays. -/
structure CallsWithin (calls : List Event) (transports delays : Nat) : Prop where
  noResponse : ∀ e ∈ calls, e.isResponse = false
  transports : calls.countP Event.isTransport + transports ≤ 3
  delays : calls.countP Event.isDelay + delays ≤ 2

/-- A request that began in `s` waits in `u`, having made some calls. -/
structure State.Waits (s u : State) : Prop where
  busy : u.phase ≠ .idle
  pending : u.pending = none
  calls : ∃ calls, u.trace = s.trace ++ calls ∧ calls ≠ [] ∧
    CallsWithin calls u.phase.transportsLeft u.phase.delaysLeft

/-- A request that began in `s` has come to its end in `t`, by a response after its calls. -/
def State.Ends (s t : State) : Prop :=
  ∃ (x : State) (calls : List Event) (st : Status) (v : RegValue),
    t = x.finish st v ∧ x.trace = s.trace ++ calls ∧ CallsWithin calls 0 0

/-- A request that began in `s` waits in `t`, or has come to its end there. -/
def State.GoesOn (s t : State) : Prop :=
  s.Waits t ∨ s.Ends t

namespace State.Waits

variable {s u x t : State}

theorem of_started {i : Instr} (h : s.started i = some u) : s.Waits u := by
  cases i <;> cases h
  case rd16 | wr16 | wree | slp =>
    exact ⟨by simp, rfl, _, rfl, List.cons_ne_nil _ _, by simp [Event.isResponse],
      by simp [Event.isTransport, Phase.transportsLeft], by simp [Event.isDelay, Phase.delaysLeft]⟩

theorem ends (h : s.Waits u) (st : Status) (v : RegValue) (htrace : x.trace = u.trace := by rfl) :
    s.Ends (x.finish st v) := by
  obtain ⟨-, -, calls, trace, -, noResponse, transports, delays⟩ := h
  exact ⟨x, calls, st, v, rfl, htrace.trans trace, noResponse, by omega, by omega⟩

/-- The next call. -/
theorem next (h : s.Waits u) {p : Phase} (hp : u.phase = p) {e : Event} (htrace : t.trace = u.trace ++ [e])
    (hpending : t.pending = u.pending)
    (hcall : t.phase ≠ .idle ∧ e.isResponse = false ∧
      [e].countP Event.isTransport + t.phase.transportsLeft ≤ p.transportsLeft ∧
      [e].countP Event.isDelay + t.phase.delaysLeft ≤ p.delaysLeft := by
        simp [Event.isResponse, Event.isTransport, Event.isDelay, Phase.transportsLeft, Phase.delaysLeft]) :
    s.Waits t := by
  subst hp
  obtain ⟨-, pending, calls, trace, nonempty, within⟩ := h
  obtain ⟨busy, noResponse, transports, delays⟩ := hcall
  have htransports := within.transports
  have hdelays := within.delays
  refine ⟨busy, hpending.trans pending, calls ++ [e], by rw [htrace, trace, List.append_assoc], by simp, ?_, ?_, ?_⟩
  · simpa [or_imp, forall_and] using ⟨within.noResponse, noResponse⟩
  · rw [List.countP_append]
    omega
  · rw [List.countP_append]
    omega

theorem receive (h : s.Waits u) {answer : ReadAnswer} {rest : List ReadAnswer} {c : Byte}
    {goOn : RegValue → State → State} (hgo : ∀ v y, y.trace = u.trace → y.pending = u.pending → s.GoesOn (goOn v y)) :
    s.GoesOn ({ u with reads := rest }.receive answer c goOn) := by
  obtain ⟨_, _, _, -, -, hr⟩ | ⟨_, _, _, -, -, hr⟩ | ⟨-, hr⟩ :=
    State.receive_cases { u with reads := rest } answer c goOn <;> rw [hr]
  · exact hgo _ _ rfl rfl
  · exact .inr (h.ends _ _)
  · exact .inr (h.ends _ _)

theorem acknowledge (h : s.Waits u) {answer : WriteAnswer} {rest : List WriteAnswer} {goOn : State → State}
    (hgo : s.GoesOn (goOn { u with writes := rest })) :
    s.GoesOn ({ u with writes := rest }.acknowledge answer goOn) := by
  cases answer with
  | ok => exact hgo
  | err => exact .inr (h.ends _ _)

/-- Each answer ends the request or leads to its next call. -/
theorem resume (h : s.Waits u) (ht : u.resume = .next t) : s.GoesOn t := by
  obtain rfl | ⟨a, rest, c, -, -, -, rfl⟩ | ⟨a, rest, -, -, rfl⟩ | ⟨a, rest, c, v, hp, -, -, -, rfl⟩ |
    ⟨a, rest, hp, -, rfl⟩ | ⟨n, c, v, hp, -, -, -, rfl⟩ | ⟨a, rest, hp, -, rfl⟩ | ⟨n, -, -, rfl⟩ :=
      State.resume_cases ht
  · exact .inl h
  · exact h.receive fun v y hy _ => .inr (h.ends _ _ hy)
  · exact h.acknowledge (.inr (h.ends _ _))
  · refine h.receive fun cur y hy hpending => ?_
    split
    · exact .inr (h.ends _ _ hy)
    · exact .inl (h.next hp (congrArg (· ++ _) hy) hpending)
  · exact h.acknowledge (.inl (h.next hp rfl rfl))
  · exact .inl (h.next hp rfl rfl)
  · exact h.acknowledge (.inl (h.next hp rfl rfl))
  · exact .inr (h.ends _ _)

end State.Waits

theorem State.Ends.phase {s t : State} (h : s.Ends t) : t.phase = .idle := by
  obtain ⟨x, calls, st, v, rfl, -⟩ := h
  rfl

theorem State.GoesOn.resume {s u t : State} (h : s.GoesOn u) (ht : u.resume = .next t) : s.GoesOn t := by
  obtain waits | ends := h
  · exact waits.resume ht
  · obtain rfl := Host.Outcome.next.inj ((State.resume_idle ends.phase).symm.trans ht)
    exact .inr ends

/-- A request that is run waits or has ended. -/
theorem exec_goesOn {i : Instr} {s t : State} (request : i.isRequest = true) (h : exec i s = .next t) : s.GoesOn t := by
  obtain ⟨_, row, -⟩ | ⟨-, he⟩ | ⟨_, -, he⟩ | ⟨-, he⟩ | ⟨_, -, he⟩ | ⟨u, -, hu, he⟩ := exec_cases i s
  case inl => simp [Instr.isRequest, row] at request
  case inr.inr.inr.inr.inr =>
    exact State.resumeUpTo_induct (P := s.GoesOn) (fun _ _ => State.GoesOn.resume) (.inl (.of_started hu))
      (he.symm.trans h)
  all_goals
    obtain rfl := Host.Outcome.next.inj (h.symm.trans he)
    exact .inr ⟨_, [], _, _, rfl, (List.append_nil _).symm, by simp, by simp, by simp⟩

/-- Settles O39: the calls made so far and those that may follow stay within the bounds, and a response comes last. -/
theorem callsOfARequestAreBounded : Obligations.CallsOfARequestAreBounded := by
  intro i s t h
  cases row : i.lookup? with
  | some sel =>
    obtain rfl := Host.Outcome.next.inj ((exec_lookUp row s).symm.trans h)
    exact ⟨[], (List.append_nil _).symm, by simp⟩
  | none =>
    obtain ⟨-, -, calls, trace, -, noResponse, transports, delays⟩ |
      ⟨x, calls, st, v, rfl, trace, noResponse, transports, delays⟩ := exec_goesOn (by simp [Instr.isRequest, row]) h
    · have responses : calls.countP Event.isResponse = 0 := List.countP_eq_zero.mpr (by simpa using noResponse)
      exact ⟨calls, trace, by omega, by omega, by omega⟩
    · have responses : calls.countP Event.isResponse = 0 := List.countP_eq_zero.mpr (by simpa using noResponse)
      refine ⟨calls ++ [.response (responseWord st v)], by rw [State.finish_trace, trace, List.append_assoc], ?_⟩
      simp only [List.countP_append, List.countP_singleton, Event.isTransport, Event.isDelay, Event.isResponse]
      simpa [responses] using ⟨transports, delays⟩

/-- Settles O40: a request that waits has made calls and no response; one that has ended has responded last. -/
theorem oneResponseEndsEachRequest : Obligations.OneResponseEndsEachRequest := by
  intro i s t request h
  obtain ⟨busy, pending, calls, trace, nonempty, within⟩ | ⟨x, calls, st, v, rfl, trace, within⟩ := exec_goesOn request h
  · exact ⟨fun idle => absurd idle busy, fun _ => ⟨pending, calls, trace, nonempty, within.noResponse⟩⟩
  · refine ⟨fun _ => ⟨⟨rfl, rfl, rfl, rfl, rfl, rfl, rfl, rfl⟩, calls, responseWord st v, ?_, rfl, within.noResponse⟩,
      fun busy => absurd rfl busy⟩
    rw [State.finish_trace, trace]

end Sys2Proof.Machine

/-! PROOFS. 44_host_layer.md: a temperature converted to a count and back (R196; 92_eei_decisions.md D17). -/

namespace Sys2Proof.Machine

theorem roundHalfAway_neg {n : Int} (hn : n < 0) (d : Nat) : roundHalfAway n d = -roundHalfAway (-n) d := by
  rw [roundHalfAway, if_neg (not_le.mpr hn), roundHalfAway, if_pos (by omega), Int.mul_neg]

theorem abs_roundHalfAway_sub_le_of_nonneg {n : Int} (hn : 0 ≤ n) {d : Nat} (hd : d ≠ 0) :
    |(roundHalfAway n d : Rat) - (n : Rat) / (d : Rat)| ≤ 1 / 2 := by
  rw [roundHalfAway_eq_floor hn hd, abs_le]
  have above := Int.floor_le ((n : Rat) / (d : Rat) + 1 / 2)
  have below := Int.lt_floor_add_one ((n : Rat) / (d : Rat) + 1 / 2)
  constructor <;> linarith

/-- Rounding moves a rational by at most a half; below zero it is the mirror image of rounding above (D17). -/
theorem abs_roundHalfAway_sub_le (n : Int) {d : Nat} (hd : d ≠ 0) :
    |(roundHalfAway n d : Rat) - (n : Rat) / (d : Rat)| ≤ 1 / 2 := by
  obtain nonneg | neg := le_or_gt 0 n
  · exact abs_roundHalfAway_sub_le_of_nonneg nonneg hd
  · have mirrored : (roundHalfAway n d : Rat) - (n : Rat) / (d : Rat) =
        -((roundHalfAway (-n) d : Rat) - ((-n : Int) : Rat) / (d : Rat)) := by
      rw [roundHalfAway_neg neg]
      push_cast
      ring
    rw [mirrored, abs_neg]
    exact abs_roundHalfAway_sub_le_of_nonneg (by omega) hd

/-- Settles O50: half a count is one hundredth of a degree. -/
theorem celsiusRoundTripIsWithinOneCount : Obligations.CelsiusRoundTripIsWithinOneCount := by
  intro t den lower upper
  have pos : (0 : Rat) < (t.den : Rat) := Nat.cast_pos.mpr den
  have rounded := abs_roundHalfAway_sub_le (100 * t.num + 27315 * t.den) (d := 2 * t.den) (by omega)
  have count : ((BitVec.ofInt 16 (celsiusToRaw t)).toNat : Int) = celsiusToRaw t := by
    rw [BitVec.toNat_ofInt]
    omega
  have scaled : ((100 * t.num + 27315 * t.den : Int) : Rat) / ((2 * t.den : Nat) : Rat) =
      50 * t.toRat + 27315 / 2 := by
    rw [Ratio.toRat]
    push_cast
    field_simp
    ring
  rw [scaled] at rounded
  have back : (rawToCelsius (BitVec.ofInt 16 (celsiusToRaw t))).toRat - t.toRat =
      ((celsiusToRaw t : Rat) - (50 * t.toRat + 27315 / 2)) * (1 / 50) := by
    rw [rawToCelsius, count, Ratio.toRat]
    push_cast
    ring
  rw [back, abs_mul]
  calc _ ≤ 1 / 2 * |(1 / 50 : Rat)| := mul_le_mul_of_nonneg_right rounded (abs_nonneg _)
    _ = 1 / 100 := by norm_num

end Sys2Proof.Machine

/-! PROOFS. 95_test_vectors.md, scenarios S5, S7 and S9: the block against the device model of 92_eei_decisions.md D29. The
device answers the call that the block waits on, and the next step goes on as if the answer had been there from the start;
`WREE` is followed from call to call by `State.Writing`. -/

namespace Sys2Proof.Machine

/-! ## Steps of the block and the device -/

theorem System.step_eq_serve {b b' : State} (h : Machine.step b = .next b') (d : Device) :
    System.step ⟨b, d⟩ = some (System.serve ⟨b', d⟩) := by
  simp [System.step, h]

theorem System.run_succ_of_step {sys sys' : System} (h : sys.step = some sys') (n : Nat) :
    System.run (n + 1) sys = System.run n sys' := by
  simp [System.run, h]

theorem System.run_add (m n : Nat) (sys : System) : System.run (m + n) sys = (System.run m sys).bind (System.run n) := by
  induction m generalizing sys with
  | zero => simp [System.run]
  | succ m ih =>
    rw [Nat.succ_add, System.run, System.run, Option.bind_assoc]
    exact congrArg sys.step.bind (funext ih)

theorem System.serve_idle {b : State} (idle : b.phase = .idle) (d : Device) : System.serve ⟨b, d⟩ = ⟨b, d⟩ := by
  simp [System.serve, idle]

theorem System.serve_read {b : State} {a r : Byte} {n t : Nat} (busy : b.phase ≠ .idle)
    (last : b.trace.getLast? = some (.transportRead a r n t)) (d : Device) :
    System.serve ⟨b, d⟩ = ⟨{ b with reads := b.reads ++ [d.answerRead a r] }, d⟩ := by
  simp [System.serve, busy, last]

theorem System.serve_write_asleep {b : State} {a r : Byte} {payload : List Byte} {t : Nat} {d : Device}
    (busy : b.phase ≠ .idle) (last : b.trace.getLast? = some (.transportWrite a r payload t)) (asleep : d.asleep = true) :
    System.serve ⟨b, d⟩ = ⟨{ b with writes := b.writes ++ [.err] }, d⟩ := by
  simp [System.serve, busy, last, asleep]

theorem System.serve_write_awake {b : State} {a r : Byte} {payload : List Byte} {t : Nat} {d : Device}
    (busy : b.phase ≠ .idle) (last : b.trace.getLast? = some (.transportWrite a r payload t)) (awake : d.asleep = false) :
    System.serve ⟨b, d⟩ =
      ⟨{ b with writes := b.writes ++ [.ok] }, d.takeWrite (b.cfg.code .sleep) a r payload⟩ := by
  simp [System.serve, busy, last, awake]

theorem System.serve_delay {b : State} {n : Nat} (busy : b.phase ≠ .idle) (last : b.trace.getLast? = some (.delay n))
    (d : Device) : System.serve ⟨b, d⟩ = ⟨{ b with delays := b.delays + 1 }, d⟩ := by
  simp [System.serve, busy, last]

/-! ## A request of a block that has no answers yet -/

/-- A ready block that nothing is asked of, and that has no answers. -/
structure State.Quiet (s : State) : Prop where
  ready : s.Ready
  noReset : s.resetLine = false
  inbox : s.inbox = []
  reads : s.reads = []
  writes : s.writes = []
  delays : s.delays = 0

/-- The block with one request offered to it. -/
def State.offered (s : State) (i : Instr) : State :=
  { s with inbox := [encode s.cfg i] }

/-- The call of `SLP` (42_transactions.md R165). -/
def State.sleepCall (s : State) : Event :=
  .transportWrite (saw s.addr) (s.cfg.code .sleep) [compute (sleepFrame s.addr (s.cfg.code .sleep))] s.cfg.timeout

section
variable {i : Instr} {s s' t u u' : State} {d d' : Device} {sel : Selector} {v : RegValue}

namespace State.Quiet

theorem takeRead (quiet : s.Quiet) : { s with reads := [] } = s := by
  rw [← quiet.reads]

theorem takeWrite (quiet : s.Quiet) : { s with writes := [] } = s := by
  rw [← quiet.writes]

theorem takeDelay (quiet : s.Quiet) : { s with delays := 0 } = s := by
  rw [← quiet.delays]

/-- After a request the block is as quiet as before. -/
theorem completed (quiet : s.Quiet) (sel : Selector) (calls : List Event) (rsp : Word) :
    (s.completed sel calls rsp).Quiet :=
  ⟨quiet.ready, quiet.noReset, quiet.inbox, quiet.reads, quiet.writes, quiet.delays⟩

theorem run (quiet : s.Quiet) (d : Device) (n : Nat) : System.run n ⟨s, d⟩ = some ⟨s, d⟩ := by
  induction n with
  | zero => rfl
  | succ n ih =>
    obtain ⟨idle, -⟩ := quiet.ready
    have waits : Machine.step s = .next s := by simp [Machine.step, quiet.noReset, idle, quiet.inbox]
    rw [System.run_succ_of_step (System.step_eq_serve waits d), System.serve_idle idle, ih]

/-- The first step accepts the request and makes its first call, which the device answers. -/
theorem step_offered (quiet : s.Quiet) (hu : s.started i = some u) (d : Device) :
    System.step ⟨s.offered i, d⟩ = some (System.serve ⟨u, d⟩) := by
  have request : i.isRequest = true := by cases i <;> cases hu <;> rfl
  obtain ⟨-, -, -, -, -, reads, writes, -⟩ := State.started_frame hu
  have still : u.resume = .next u := by
    cases i <;> cases hu <;> simp [State.resume, State.onRead, State.onWrite, quiet.reads, quiet.writes]
  have accepted := step_eq_exec (s := s.offered i) quiet.noReset quiet.ready.1 rfl
    (decode_encode_of_isRequest request s.cfg)
  have noMore : { s.offered i with inbox := [] } = s := by
    rw [State.offered, ← quiet.inbox]
  rw [noMore, exec_eq_started hu still] at accepted
  exact System.step_eq_serve accepted d

/-- The second step goes on as if the answer had been there from the start. -/
theorem run_offered (quiet : s.Quiet) (hu : s.started i = some u) (served : System.serve ⟨u, d⟩ = ⟨u', d'⟩)
    (hu' : s'.started i = some u') (noReset : s'.resetLine = false) (h : exec i s' = .next t) (ended : t.phase = .idle) :
    System.run 2 ⟨s.offered i, d⟩ = some ⟨t, d'⟩ := by
  obtain ⟨busy, -⟩ := State.started_waits hu'
  obtain ⟨-, -, -, resetLine, -⟩ := State.started_frame hu'
  have stepped : Machine.step u' = .next t := by
    rw [step_eq_drive (resetLine.trans noReset) busy, ← exec_of_started hu', h]
  rw [System.run_succ_of_step (quiet.step_offered hu d), served,
    System.run_succ_of_step (System.step_eq_serve stepped d'), System.serve_idle ended]
  rfl

/-- A request whose one call is a read. -/
theorem run_read (quiet : s.Quiet) {answer : ReadAnswer} (hu : s.started i = some u)
    (call : u.trace = s.trace ++ [s.readCall sel]) (answers : d.answerRead (saw s.addr) (s.cfg.code sel) = answer)
    (h : exec i { s with reads := [answer] } = .next t) (ended : t.phase = .idle) :
    System.run 2 ⟨s.offered i, d⟩ = some ⟨t, d⟩ := by
  obtain ⟨busy, -⟩ := State.started_waits hu
  obtain ⟨-, -, -, -, -, reads, -⟩ := State.started_frame hu
  have served := System.serve_read busy (by rw [call]; exact List.getLast?_concat ..) d
  rw [reads, quiet.reads, answers] at served
  exact quiet.run_offered (s' := { s with reads := [answer] }) hu served (by cases i <;> cases hu <;> rfl)
    quiet.noReset h ended

/-- A request whose one call is a write. -/
theorem run_write (quiet : s.Quiet) {answer : WriteAnswer} (hu : s.started i = some u)
    (served : System.serve ⟨u, d⟩ = ⟨{ u with writes := u.writes ++ [answer] }, d'⟩)
    (h : exec i { s with writes := [answer] } = .next t) (ended : t.phase = .idle) :
    System.run 2 ⟨s.offered i, d⟩ = some ⟨t, d'⟩ := by
  obtain ⟨-, -, -, -, -, -, writes, -⟩ := State.started_frame hu
  rw [writes, quiet.writes] at served
  exact quiet.run_offered (s' := { s with writes := [answer] }) hu served (by cases i <;> cases hu <;> rfl)
    quiet.noReset h ended

/-! ## The device asleep, and put to sleep -/

theorem run_read_asleep (quiet : s.Quiet) (asleep : d.asleep = true) (hu : s.started i = some u)
    (call : u.trace = s.trace ++ [s.readCall sel])
    (fails : exec i { s with reads := [.err] } =
      .next ({ s with reads := [] }.completed sel [s.readCall sel] (responseWord .transportError 0x0000#16))) :
    System.run 2 ⟨s.offered i, d⟩ = some ⟨s.completed sel [s.readCall sel] 0x00010000#32, d⟩ := by
  rw [quiet.takeRead, responseWord_errors.1] at fails
  exact quiet.run_read hu call (by simp [Device.answerRead, asleep]) fails quiet.ready.1

theorem run_rd16_asleep (quiet : s.Quiet) (asleep : d.asleep = true) (sel : Selector) :
    System.run 2 ⟨s.offered (.rd16 sel), d⟩ = some ⟨s.completed sel [s.readCall sel] 0x00010000#32, d⟩ :=
  quiet.run_read_asleep asleep (i := .rd16 sel) rfl rfl
    (exec_rd16_of_ready (s := { s with reads := [.err] }) quiet.ready rfl rfl
      fun _ _ => State.receive_fail _ _ (.inl rfl))

theorem run_wree_asleep (quiet : s.Quiet) (asleep : d.asleep = true) (sel : Selector) (v : RegValue) :
    System.run 2 ⟨s.offered (.wree sel v), d⟩ = some ⟨s.completed sel [s.readCall sel] 0x00010000#32, d⟩ :=
  quiet.run_read_asleep asleep (i := .wree sel v) rfl rfl
    (exec_wree_read_fails (s := { s with reads := [.err] }) quiet.ready rfl (.inl rfl))

theorem run_wr16_asleep (quiet : s.Quiet) (asleep : d.asleep = true) (sel : Selector) (v : RegValue) :
    System.run 2 ⟨s.offered (.wr16 sel v), d⟩ = some ⟨s.completed sel [s.writeCall sel v] 0x00010000#32, d⟩ := by
  have fails := exec_wr16_of_ready (s := { s with writes := [.err] }) (answer := .err) quiet.ready sel v
    responseWord_errors.1 rfl
  exact quiet.run_write (i := .wr16 sel v) rfl
    (System.serve_write_asleep (by simp) (List.getLast?_concat ..) asleep)
    (fails.trans (by rw [quiet.takeWrite]; rfl)) quiet.ready.1

theorem run_slp (quiet : s.Quiet) {answer : WriteAnswer} {rsp : Word}
    (hrsp : responseWord answer.status 0x0000#16 = rsp)
    (served : ∀ u : State, u.phase ≠ .idle → u.cfg = s.cfg → u.trace.getLast? = some s.sleepCall →
      System.serve ⟨u, d⟩ = ⟨{ u with writes := u.writes ++ [answer] }, d'⟩) :
    System.run 2 ⟨s.offered .slp, d⟩ = some ⟨s.completed .sleep [s.sleepCall] rsp, d'⟩ := by
  have ends := exec_slp_of_ready (s := { s with writes := [answer] }) quiet.ready hrsp rfl
  exact quiet.run_write (i := .slp) rfl (served _ (by simp) rfl (List.getLast?_concat ..))
    (ends.trans (by rw [quiet.takeWrite]; rfl)) quiet.ready.1

end State.Quiet

end

/-- Settles O54: each transaction makes its one call, which a device that is asleep does not answer. -/
theorem afterSleepEveryTransactionFails : Obligations.AfterSleepEveryTransactionFails := by
  intro s d ready noReset reads writes delays run ended read write sleep
  have quiet : State.Quiet { s with inbox := [] } := ⟨ready, noReset, rfl, reads, writes, delays⟩
  refine ⟨fun awake => ?_, fun asleep => ⟨quiet.run_rd16_asleep asleep, quiet.run_wr16_asleep asleep,
    quiet.run_wree_asleep asleep, ?_⟩⟩
  · refine quiet.run_slp (answer := .ok) (responseWord_ok _) fun u busy cfg last => ?_
    rw [System.serve_write_awake busy last awake, cfg]
    simp [Device.takeWrite, sleepFrame]
  · exact quiet.run_slp (answer := .err) responseWord_errors.1 fun u busy _ last =>
      System.serve_write_asleep busy last asleep

end Sys2Proof.Machine

/-! PROOFS. 95_test_vectors.md, scenarios S5 and S7: `WREE` against a device that is awake (92_eei_decisions.md D29). From
one call to the next the block stays `State.writing`, with no answer left over; the device takes each write as it comes. -/

namespace Sys2Proof.Machine

/-! ## The device awake -/

/-- A good answer: the value a code holds, under the checksum that the block computes (42_transactions.md R161). -/
theorem Device.answerRead_awake {d : Device} (awake : d.asleep = false) (a : BusAddr) (r : Byte) :
    d.answerRead (saw a) r = .ok [lowByte (d.regs.read r.toNat), highByte (d.regs.read r.toNat),
      compute (readFrame a r (lowByte (d.regs.read r.toNat)) (highByte (d.regs.read r.toNat)))] := by
  rw [Device.answerRead, awake]
  rfl

/-- The frame of a value stores it (30_encoding.md R91). -/
theorem Device.takeWrite_word (d : Device) (c : Byte) (a : BusAddr) (r : Byte) (x : RegValue) :
    d.takeWrite c (saw a) r [lowByte x, highByte x, compute (writeFrame a r x)] =
      { d with regs := d.regs.write r.toNat x } := by
  rw [Device.takeWrite, if_pos (by rfl), valueOfBytes_lowByte_highByte]

/-! ## From call to call -/

/-- The block has made its last call of `WREE sel, v` since `s`, waits in phase `p`, and the device answers. -/
def State.AtCall (s : State) (sel : Selector) (v : RegValue) (p : Phase) (calls : List Event) (d : Device)
    (sys : System) : Prop :=
  ∃ y : State, sys = System.serve ⟨s.writing y sel v p calls, d⟩

theorem State.writing_getLast? (s y : State) (sel : Selector) (v : RegValue) (p : Phase) (calls : List Event)
    (e : Event) : (s.writing y sel v p (calls ++ [e])).trace.getLast? = some e := by
  simp [State.writing]

theorem System.serve_writing_write (s y : State) {sel : Selector} {v : RegValue} {p : Phase} {calls : List Event}
    {d : Device} (busy : p ≠ .idle) (awake : d.asleep = false) (x : RegValue) :
    System.serve ⟨s.writing y sel v p (calls ++ [s.writeCall sel x]), d⟩ =
      ⟨State.writing { s with writes := s.writes ++ [.ok] } y sel v p (calls ++ [s.writeCall sel x]),
        { d with regs := d.regs.write (s.cfg.code sel).toNat x }⟩ := by
  rw [← d.takeWrite_word (s.cfg.code .sleep) s.addr]
  exact System.serve_write_awake busy (s.writing_getLast? y sel v p calls _) awake

theorem System.serve_writing_delay (s y : State) {sel : Selector} {v : RegValue} {p : Phase} {calls : List Event}
    (busy : p ≠ .idle) (d : Device) :
    System.serve ⟨s.writing y sel v p (calls ++ [.delay Config.settle]), d⟩ =
      ⟨State.writing { s with delays := s.delays + 1 } y sel v p (calls ++ [.delay Config.settle]), d⟩ :=
  System.serve_delay busy (s.writing_getLast? y sel v p calls _) d

namespace State.Quiet

section
variable {s s' : State} {sel : Selector} {v : RegValue} {p q : Phase} {calls calls' : List Event} {d d' : Device}
  {sys : System}

/-- With no answer left over the block waits, whatever its phase. -/
theorem writing_still (quiet : s.Quiet) (y : State) (sel : Selector) (v : RegValue) (p : Phase) (calls : List Event) :
    (s.writing y sel v p calls).resume = .next (s.writing y sel v p calls) := by
  cases p
  case idle => exact State.resume_idle rfl
  case rdXfer | eeRead => simp [State.resume, State.onRead, State.writing, quiet.reads]
  case wrXfer | slpXfer | eeErase | eeProg => simp [State.resume, State.onWrite, State.writing, quiet.writes]
  case eeWait1 | eeWait2 => simp [State.resume, State.onDelay, State.writing, quiet.delays]

/-- The answer of one call leads to the next. -/
theorem step_writing (quiet : s.Quiet) (busy : p ≠ .idle) (noReset : s'.resetLine = false)
    (served : ∀ y, System.serve ⟨s.writing y sel v p calls, d⟩ = ⟨s'.writing y sel v p calls, d'⟩)
    (next : ∀ r, s'.Writing sel v p calls maxCalls r → s.Writing sel v q calls' 4 r) (h : s.AtCall sel v p calls d sys) :
    ∃ sys', sys.step = some sys' ∧ s.AtCall sel v q calls' d' sys' := by
  obtain ⟨y, rfl⟩ := h
  obtain ⟨z, hz⟩ := next _ ⟨y, rfl⟩
  rw [State.resumeUpTo_still (quiet.writing_still z sel v q calls')] at hz
  refine ⟨_, ?_, z, rfl⟩
  rw [served]
  exact System.step_eq_serve ((step_eq_drive (s := s'.writing y sel v p calls) noReset busy).trans hz) d'

theorem step_read_differs (quiet : s.Quiet) (awake : d.asleep = false)
    (differs : d.regs.read (s.cfg.code sel).toNat ≠ v) (h : s.AtCall sel v .eeRead [s.readCall sel] d sys) :
    ∃ sys', sys.step = some sys' ∧
      s.AtCall sel v .eeErase ([s.readCall sel] ++ [s.writeCall sel Config.eraseValue]) d sys' := by
  have answers := Device.answerRead_awake awake s.addr (s.cfg.code sel)
  refine quiet.step_writing (s' := { s with reads := s.reads ++ [d.answerRead (saw s.addr) (s.cfg.code sel)] }) (by simp)
    quiet.noReset (fun y => System.serve_read (by simp [State.writing]) (s.writing_getLast? y sel v _ [] _) d)
    (fun r writing => ?_) h
  have erasing := writing.read_differs (by rw [quiet.reads, answers]; rfl) rfl
    (by rwa [valueOfBytes_lowByte_highByte])
  exact quiet.takeRead ▸ erasing

theorem step_erase (quiet : s.Quiet) (awake : d.asleep = false)
    (h : s.AtCall sel v .eeErase (calls ++ [s.writeCall sel Config.eraseValue]) d sys) :
    ∃ sys', sys.step = some sys' ∧
      s.AtCall sel v .eeWait1 (calls ++ [s.writeCall sel Config.eraseValue] ++ [.delay Config.settle])
        { d with regs := d.regs.write (s.cfg.code sel).toNat Config.eraseValue } sys' := by
  refine quiet.step_writing (s' := { s with writes := s.writes ++ [.ok] }) (by simp) quiet.noReset
    (fun y => System.serve_writing_write s y (p := .eeErase) (by simp) awake _) (fun r writing => ?_) h
  have next := writing.erase_ok (by rw [quiet.writes]; rfl)
  exact quiet.takeWrite ▸ next

theorem step_settle (quiet : s.Quiet) (h : s.AtCall sel v .eeWait1 (calls ++ [.delay Config.settle]) d sys) :
    ∃ sys', sys.step = some sys' ∧
      s.AtCall sel v .eeProg (calls ++ [.delay Config.settle] ++ [s.writeCall sel v]) d sys' := by
  refine quiet.step_writing (s' := { s with delays := s.delays + 1 }) (by simp) quiet.noReset
    (fun y => System.serve_writing_delay s y (p := .eeWait1) (by simp) d) (fun r writing => ?_) h
  have next := writing.erase_settled (by rw [quiet.delays])
  exact quiet.takeDelay ▸ next

theorem step_program (quiet : s.Quiet) (awake : d.asleep = false)
    (h : s.AtCall sel v .eeProg (calls ++ [s.writeCall sel v]) d sys) :
    ∃ sys', sys.step = some sys' ∧
      s.AtCall sel v .eeWait2 (calls ++ [s.writeCall sel v] ++ [.delay Config.settle])
        { d with regs := d.regs.write (s.cfg.code sel).toNat v } sys' := by
  refine quiet.step_writing (s' := { s with writes := s.writes ++ [.ok] }) (by simp) quiet.noReset
    (fun y => System.serve_writing_write s y (p := .eeProg) (by simp) awake _) (fun r writing => ?_) h
  have next := writing.program_ok (by rw [quiet.writes]; rfl)
  exact quiet.takeWrite ▸ next

theorem step_end (quiet : s.Quiet) (h : s.AtCall sel v .eeWait2 (calls ++ [.delay Config.settle]) d sys) :
    sys.step = some ⟨s.completed sel (calls ++ [.delay Config.settle]) 0x00000000#32, d⟩ := by
  obtain ⟨y, rfl⟩ := h
  have writing : State.Writing { s with delays := s.delays + 1 } sel v .eeWait2 (calls ++ [.delay Config.settle])
      maxCalls _ := ⟨y, rfl⟩
  have ended := writing.program_settled (delays := 0) quiet.ready (by rw [quiet.delays])
  rw [quiet.takeDelay] at ended
  rw [System.serve_writing_delay s y (by simp) d,
    System.step_eq_serve ((step_eq_drive (s := State.writing { s with delays := s.delays + 1 } y sel v .eeWait2 _)
      quiet.noReset (by simp [State.writing])).trans ended) d,
    System.serve_idle (b := s.completed sel _ _) quiet.ready.1]
  rfl

/-! ## The two ways of `WREE` against the device -/

/-- The register holds another value: it is erased and programmed. -/
theorem run_wree_differs (quiet : s.Quiet) (awake : d.asleep = false)
    (differs : d.regs.read (s.cfg.code sel).toNat ≠ v) :
    System.run 6 ⟨s.offered (.wree sel v), d⟩ = some
      ⟨s.completed sel [s.readCall sel, s.writeCall sel Config.eraseValue, .delay Config.settle, s.writeCall sel v,
          .delay Config.settle] 0x00000000#32,
        { d with regs := (d.regs.write (s.cfg.code sel).toNat Config.eraseValue).write (s.cfg.code sel).toNat v }⟩ := by
  have started : System.step ⟨s.offered (.wree sel v), d⟩ =
      some (System.serve ⟨s.writing s.clearLatches sel v .eeRead [s.readCall sel], d⟩) := quiet.step_offered rfl d
  obtain ⟨erasing, hread, h⟩ := quiet.step_read_differs awake differs ⟨s.clearLatches, rfl⟩
  obtain ⟨settling, herase, h⟩ := quiet.step_erase awake h
  obtain ⟨programming, hsettle, h⟩ := quiet.step_settle h
  obtain ⟨settled, hprogram, h⟩ := quiet.step_program (by exact awake) h
  have ended := quiet.step_end h
  rw [System.run_succ_of_step started, System.run_succ_of_step hread, System.run_succ_of_step herase,
    System.run_succ_of_step hsettle, System.run_succ_of_step hprogram, System.run_succ_of_step ended]
  rfl

/-- The register holds the target: it is read, and nothing is written. -/
theorem run_wree_equal (quiet : s.Quiet) (awake : d.asleep = false) (holds : d.regs.read (s.cfg.code sel).toNat = v) :
    System.run 2 ⟨s.offered (.wree sel v), d⟩ = some ⟨s.completed sel [s.readCall sel] 0x00000000#32, d⟩ := by
  have answers := Device.answerRead_awake awake s.addr (s.cfg.code sel)
  have ends := exec_wree_read_equal (s := { s with reads := [d.answerRead (saw s.addr) (s.cfg.code sel)] }) (v := v)
    quiet.ready (by rw [answers]) rfl ((valueOfBytes_lowByte_highByte _).trans holds)
  rw [quiet.takeRead] at ends
  exact quiet.run_read (i := .wree sel v) rfl rfl rfl ends quiet.ready.1

end

end State.Quiet

/-- Settles O53: `WREE` ends with the target in the register, written or found there, and then finds it there again. -/
theorem persistentWriteReachesTheDevice : Obligations.PersistentWriteReachesTheDevice := by
  intro s d sel v ready noReset reads writes delays awake wf request
  have quiet : State.Quiet { s with inbox := [] } := ⟨ready, noReset, rfl, reads, writes, delays⟩
  suffices first : ∃ (calls : List Event) (d' : Device),
      System.run 6 ⟨request s, d⟩ = some ⟨State.completed { s with inbox := [] } sel calls 0x00000000#32, d'⟩ ∧
      d'.asleep = false ∧ d'.regs.wf = true ∧ d'.regs.read (s.cfg.code sel).toNat = v ∧
      ∀ k, k ≠ (s.cfg.code sel).toNat → d'.regs.read k = d.regs.read k by
    obtain ⟨calls, d', run, awake', wf', holds, others⟩ := first
    exact ⟨_, run, ready, rfl, awake', wf', holds, others, (quiet.completed sel calls _).run_wree_equal awake' holds⟩
  by_cases holds : d.regs.read (s.cfg.code sel).toNat = v
  · refine ⟨[State.readCall s sel], d, ?_, awake, wf, holds, fun _ _ => rfl⟩
    exact (System.run_add 2 4 _).trans ((congrArg (·.bind (System.run 4)) (quiet.run_wree_equal awake holds)).trans
      ((quiet.completed sel _ _).run d 4))
  · have run := quiet.run_wree_differs awake holds
    have erased := RegSpace.write_wf wf (s.cfg.code sel).toNat Config.eraseValue
    have programmed (j : Nat) := RegSpace.read_write erased (s.cfg.code sel).toNat v j
    refine ⟨_, _, run, awake, RegSpace.write_wf erased _ v, ?_, fun k other => ?_⟩
    · rw [programmed, if_pos rfl]
    · rw [programmed, if_neg other, RegSpace.read_write wf, if_neg other]

end Sys2Proof.Machine
